-- ==== Sys2Proof/Word.lean ====
section
/-! DEFINITION. The word types of the block: bytes, times and payloads. -/

namespace Sys2Proof

/-- A byte: 8 bits, unsigned (R15). -/
abbrev Byte := BitVec 8

/-- A time or a duration: `W_TIME = 32` bits, unsigned (R13, R15). -/
abbrev Time := BitVec 32

/-- A payload: a sequence of bytes, its identity purely its bytes (R90, R93). -/
abbrev Payload := List Byte

end Sys2Proof
end

