-- ==== Sys2Proof/Syntax.lean ====
section
/-! DEFINITION. The enumerations of the block and its instructions: one constructor of `Instr` for
each row of spec/opcode_table.json. -/

namespace Sys2Proof

/-- The five states of the frame decoder, in the order of R97. -/
inductive RxState where
  | idle | awaitStx | inFrame | afterDle | awaitChecksum
deriving DecidableEq, Repr

/-- The six states of the door control machine, in the order of R96. -/
inductive CtlState where
  | undefined | openStart | opened | closed | closedLocked | transition
deriving DecidableEq, Repr

/-- The five door positions, in the order of R96 (codes 0 to 4). -/
inductive Position where
  | closed | closing | opened | opening | undefined
deriving DecidableEq, Repr, Inhabited

/-- The four sensors, in the order of R10 and R97 (indices 0 to 3). -/
inductive Sensor where
  | airA | airB | radarA | radarB
deriving DecidableEq, Repr

/-- The instructions: the rows of spec/opcode_table.json. The first sixteen are the operations the
host issues (R92); the others are the phases of `CYCLE` (R94), the sub-operation of `RXBYTE`
(R142), the rows of the decoder's byte map (R91), the frame (R80) and the command tokens (R95),
which no host operation code names (log entry 10). -/
inductive Instr where
  /-- `RESET` (R280). -/
  | reset
  /-- `RXBYTE b` (R120). -/
  | rxbyte (b : Byte)
  /-- `DEQUEUE` (R146). -/
  | dequeue
  /-- `SELECT token` (R156, R157). -/
  | select (token : Byte)
  /-- `SEQTICK now` (R158). -/
  | seqtick (now : Time)
  /-- `RAWWR s v` (R171); an `s` above 3 is out of range (R93). -/
  | rawwr (s : Byte) (v : Bool)
  /-- `CYCLE now pos` (R230); `pos` is the 3-bit code of R96, 5 to 7 out of range (R93). -/
  | cycle (now : Time) (pos : BitVec 3)
  /-- `SETMODE m` (R235). -/
  | setmode (m : Byte)
  /-- `SETLOCKREQ v` (R236). -/
  | setlockreq (v : Bool)
  /-- `SETLATCH i` (R237); an `i` of `N_SWITCH` or more is out of range (R93). -/
  | setlatch (i : Byte)
  /-- `SETDEBUG v` (R238). -/
  | setdebug (v : Bool)
  /-- `ENCODE p` (R110). -/
  | encode (p : Payload)
  /-- Operation code 0xC, unassigned (R92). -/
  | unassignedC
  /-- Operation code 0xD, unassigned (R92). -/
  | unassignedD
  /-- Operation code 0xE, unassigned (R92). -/
  | unassignedE
  /-- Operation code 0xF, unassigned (R92). -/
  | unassignedF
  /-- Phase 1 of `CYCLE`: `RECONCILE` (R173). -/
  | cycleReconcile
  /-- Phase 2 of `CYCLE`: `DOORSTEP(now, pos)` (R185). -/
  | cycleDoorstep (now : Time) (pos : Position)
  /-- Phase 3 of `CYCLE`: `LOCKSTEP(now)` (R215). -/
  | cycleLockstep (now : Time)
  /-- Phase 4 of `CYCLE`: `SEQTICK(now)` (R158). -/
  | cycleSeqtick (now : Time)
  /-- `ENQUEUE p`, performed by `RXBYTE` when a frame validates (R142). -/
  | enqueue (p : Payload)
  /-- `Idle`, byte `DLE` (R122). -/
  | rxIdleDle
  /-- `Idle`, any other byte (R122). -/
  | rxIdleOther (b : Byte)
  /-- `AwaitStx`, byte `STX` (R123). -/
  | rxAwaitStxStx
  /-- `AwaitStx`, byte `DLE` (R123). -/
  | rxAwaitStxDle
  /-- `AwaitStx`, any other byte (R123). -/
  | rxAwaitStxOther (b : Byte)
  /-- `InFrame`, byte `DLE` (R124). -/
  | rxInFrameDle
  /-- `InFrame`, any other byte: data (R124, R126). -/
  | rxInFrameData (b : Byte)
  /-- `AfterDle`, byte `DLE`: an escaped `DLE` (R125, R126). -/
  | rxAfterDleDle
  /-- `AfterDle`, byte `ETX` (R125). -/
  | rxAfterDleEtx
  /-- `AfterDle`, any other byte: `E_ESC` (R125). -/
  | rxAfterDleOther (b : Byte)
  /-- `AwaitChecksum`, the byte equals `rx_ck` (R127). -/
  | rxAwaitChecksumGood (b : Byte)
  /-- `AwaitChecksum`, any other byte: `E_CKSUM` (R127). -/
  | rxAwaitChecksumBad (b : Byte)
  /-- A whole frame on the wire, `FRAME(p)` (R80, R100). -/
  | frame (p : Payload)
  /-- Token `OPEN`, code 0x01 (R95). -/
  | tokenOpen
  /-- Token `OPENING`, code 0x02 (R95). -/
  | tokenOpening
  /-- Token `CLOSE`, code 0x03 (R95). -/
  | tokenClose
  /-- Token `CLOSING`, code 0x04 (R95). -/
  | tokenClosing
  /-- Token `CLOSED`, code 0x05 (R95). -/
  | tokenClosed
  /-- Token `INIT_k`, code `0x10 + k` (R95). -/
  | tokenInit (k : Byte)
deriving DecidableEq, Repr

end Sys2Proof
end

