-- ==== Sys2Proof/Config.lean ====
section
/-! DEFINITION. The protocol constants, the parameters, and the free values the spec leaves open. -/

namespace Sys2Proof.Config

/-- `DLE` (R8, R81). -/
abbrev dle : Byte := 0x10

/-- `STX` (R8, R81). -/
abbrev stx : Byte := 0x02

/-- `ETX` (R8, R81). -/
abbrev etx : Byte := 0x03

/-- `MAX_PAYLOAD`, the size of `rx_buf` and the discard threshold (R8, R126). -/
abbrev maxPayload : Nat := 128

/-- A command definition: a final payload and the prefix payloads sent once before it (R155). -/
structure CommandDef where
  /-- The payload repeated for ever. -/
  final : Payload
  /-- The payloads sent once each, in this order. -/
  prefixes : List Payload
deriving DecidableEq, Repr, Inhabited

/-- The parameters of the block (R9, R11, R12, R14, R33). No operation writes them (R37). -/
structure Params where
  /-- `SEND_INTERVAL` (R11). -/
  sendInterval : Time
  /-- `MIN_HOLD` (R11). -/
  minHold : Time
  /-- `LOCK_PULSE_DURATION` (R11). -/
  lockPulseDuration : Time
  /-- `REMINDER_INTERVAL` (R11). -/
  reminderInterval : Time
  /-- `TRANSITION_TIMEOUT` (R11). -/
  transitionTimeout : Time
  /-- `QUEUE_CAP` (R9). -/
  queueCap : Nat
  /-- `TX_PAYLOAD_LEN` (R9). -/
  txPayloadLen : Nat
  /-- `N_SWITCH` (R14). -/
  nSwitch : Nat
  /-- `N_INIT`, the number of init sequences (R12). -/
  nInit : Nat
  /-- `COMMANDS`: the finite map from token code to command definition (R12, R65). -/
  commands : List (Byte × CommandDef)
  /-- `MODE_FACTORY_DEFAULT` (R33). -/
  modeFactoryDefault : Byte
deriving DecidableEq, Repr

/-- What R9, R12, R14 and R302 ask of the parameters, the upper bound on the durations included. -/
def Params.sensible (c : Params) : Bool :=
  (1 ≤ c.queueCap) && (c.txPayloadLen ≤ maxPayload - 1) && (1 ≤ c.nSwitch) && (1 ≤ c.nInit)
    && (c.commands.lookup 0x01).isSome && (c.commands.lookup 0x03).isSome
    && c.commands.all (fun e => (e.2.final :: e.2.prefixes).all (fun p => p.length = c.txPayloadLen))
    && [c.sendInterval, c.minHold, c.lockPulseDuration, c.reminderInterval, c.transitionTimeout].all
        (fun d => d.toNat < 2 ^ 31)

/-- `SEND_INTERVAL`: the spec gives no value (R11). -/
opaque sendInterval : Time

/-- `MIN_HOLD`: the spec gives no value (R11). -/
opaque minHold : Time

/-- `LOCK_PULSE_DURATION`: the spec gives no value (R11). -/
opaque lockPulseDuration : Time

/-- `REMINDER_INTERVAL`: the spec gives no value (R11). -/
opaque reminderInterval : Time

/-- `TRANSITION_TIMEOUT`: the spec gives no value (R11). -/
opaque transitionTimeout : Time

/-- `COMMANDS`: the spec gives no contents (R12). -/
opaque commands : List (Byte × CommandDef)

/-- `N_INIT`: the spec gives no value (R12). -/
opaque nInit : Nat

/-- `MODE_FACTORY_DEFAULT`: the spec gives no value (R33). -/
opaque modeFactoryDefault : Byte

/-- The parameters of the deployment the machine starts with: the spec's defaults for `QUEUE_CAP`,
`TX_PAYLOAD_LEN` and `N_SWITCH` (R9, R14), opaque values for what it leaves open (log entry 4). -/
def deployment : Params where
  sendInterval := sendInterval
  minHold := minHold
  lockPulseDuration := lockPulseDuration
  reminderInterval := reminderInterval
  transitionTimeout := transitionTimeout
  queueCap := 4
  txPayloadLen := 8
  nSwitch := 2
  nInit := nInit
  commands := commands
  modeFactoryDefault := modeFactoryDefault

/-- Free value: what byte `a` of `rx_buf` reads as while nothing has written it since the reset
counted by `epoch` (R44, log entry 7). -/
opaque freeRxByte (epoch : Nat) (a : Nat) : Byte

/-- Free value of `rxlog_last` after the `RESET` counted by `epoch` (R280, log entry 6). -/
opaque freeRxlogLast (epoch : Nat) : Payload

/-- Free value of `txlog_last` after the `RESET` counted by `epoch` (R280, log entry 6). -/
opaque freeTxlogLast (epoch : Nat) : Payload

/-- Free value of `seq_cmd` after the `RESET` counted by `epoch` (R280, log entry 6). -/
opaque freeSeqCmd (epoch : Nat) : Byte

/-- Free value of `seq_last` after the `RESET` counted by `epoch` (R280, log entry 6). -/
opaque freeSeqLast (epoch : Nat) : Time

/-- Free value of `door_open_since` after the `RESET` counted by `epoch` (R280, log entry 6). -/
opaque freeDoorOpenSince (epoch : Nat) : Time

/-- Free value of `door_state_last_changed` after the `RESET` counted by `epoch` (R280, log
entry 6). -/
opaque freeDoorStateLastChanged (epoch : Nat) : Time

/-- Free value of `pos_at_entry` after the `RESET` counted by `epoch` (R280, log entry 6). -/
opaque freePosAtEntry (epoch : Nat) : Position

/-- Free value of `pulse_start` after the `RESET` counted by `epoch` (R280, log entry 6). -/
opaque freePulseStart (epoch : Nat) : Time

/-- Free value of `reminder_last` after the `RESET` counted by `epoch` (R280, log entry 6). -/
opaque freeReminderLast (epoch : Nat) : Time

end Sys2Proof.Config
end

