-- ==== Sys2Proof/WellFormed.lean ====
section
/-! DEFINITION. Which terms of `Instr` stand for a row of spec/opcode_table.json with operands the
row admits. An operand the spec calls out of range and gives a meaning to (R93: no operation) is
well formed. -/

namespace Sys2Proof

/-- The instruction is one its row admits: the byte of an "other" or "data" row is none an earlier
row of the same state takes (R91); an enqueued payload has at most 127 bytes (R142); the index of
an init token is at least 1 and its code fits a byte (R95). -/
def WellFormed : Instr → Bool
  | .enqueue p => p.length ≤ Config.maxPayload - 1
  | .rxIdleOther b => b ≠ Config.dle
  | .rxAwaitStxOther b => b ≠ Config.dle && b ≠ Config.stx
  | .rxInFrameData b => b ≠ Config.dle
  | .rxAfterDleOther b => b ≠ Config.dle && b ≠ Config.etx
  | .tokenInit k => 1 ≤ k.toNat && k.toNat ≤ 0xEF
  | .reset | .rxbyte _ | .dequeue | .select _ | .seqtick _ | .rawwr _ _ | .cycle _ _ | .setmode _
  | .setlockreq _ | .setlatch _ | .setdebug _ | .encode _ | .unassignedC | .unassignedD
  | .unassignedE | .unassignedF | .cycleReconcile | .cycleDoorstep _ _ | .cycleLockstep _
  | .cycleSeqtick _ | .rxIdleDle | .rxAwaitStxStx | .rxAwaitStxDle | .rxInFrameDle | .rxAfterDleDle
  | .rxAfterDleEtx | .rxAwaitChecksumGood _ | .rxAwaitChecksumBad _ | .frame _ | .tokenOpen
  | .tokenOpening | .tokenClose | .tokenClosing | .tokenClosed => true

end Sys2Proof
end

