-- ==== Sys2Proof/Decode.lean ====
section
/-! DEFINITION. The encodings of 30_encoding.md: codes of the enumerations, the frame format, the
decoder's byte map, the record of a host operation; the decoder, and after it the encoder. -/

namespace Sys2Proof

/-- Why bytes are no instruction of the space they are read in. -/
inductive DecodeError where
  /-- The bytes end before the instruction does. -/
  | truncated
  /-- A bit that the encoding leaves unused is 1, or a flag byte is neither 0 nor 1. -/
  | reservedBits
  /-- The code names no instruction of the space (a phase above 4, an unknown token). -/
  | unknownCode
  /-- The bytes are no frame: a wrong delimiter, a lone `DLE` in the stuffed region, or a wrong
  checksum (R80). -/
  | badFrame
  /-- Bytes are left over after the one operation that a record holds. -/
  | trailing
deriving DecidableEq, Repr

/-- The encoding spaces of spec/opcode_table.json, its "format" column. A byte of the `wirebyte`
space is read in a decoder state and against a running checksum (R91). -/
inductive Space where
  /-- HOSTOP: the operations the host issues (R92). -/
  | hostop
  /-- PHASE: the phases of `CYCLE`, not issued on their own (R94). -/
  | phase
  /-- SUBOP: `ENQUEUE` (R94). -/
  | subop
  /-- WIREBYTE: a received byte, in `rx_state` with `rx_ck` (R91). -/
  | wirebyte (st : RxState) (ck : Byte)
  /-- WIREFRAME: a whole frame (R80). -/
  | wireframe
  /-- TOKEN: the operand of `SELECT` (R95). -/
  | token
deriving DecidableEq, Repr

/-! ### Codes of the enumerations (R96, R97) -/

/-- The position a 3-bit code names (R96); codes 5 to 7 name none. -/
def positionOfCode (c : BitVec 3) : Option Position :=
  match c.toNat with
  | 0 => some .closed
  | 1 => some .closing
  | 2 => some .opened
  | 3 => some .opening
  | 4 => some .undefined
  | _ => none

/-- The code of a position (R96). -/
def positionCode : Position → BitVec 3
  | .closed => 0
  | .closing => 1
  | .opened => 2
  | .opening => 3
  | .undefined => 4

/-- The sensor an index names (R97); indices above 3 name none. -/
def sensorOfIndex (s : Byte) : Option Sensor :=
  match s.toNat with
  | 0 => some .airA
  | 1 => some .airB
  | 2 => some .radarA
  | 3 => some .radarB
  | _ => none

/-- The index of a sensor (R97). -/
def sensorIndex : Sensor → Byte
  | .airA => 0
  | .airB => 1
  | .radarA => 2
  | .radarB => 3

/-- The code of a control state (R96). -/
def ctlStateCode : CtlState → BitVec 3
  | .undefined => 0
  | .openStart => 1
  | .opened => 2
  | .closed => 3
  | .closedLocked => 4
  | .transition => 5

/-- The code of a decoder state (R97). -/
def rxStateCode : RxState → BitVec 3
  | .idle => 0
  | .awaitStx => 1
  | .inFrame => 2
  | .afterDle => 3
  | .awaitChecksum => 4

/-! ### The frame format (R80 to R85, R110) -/

/-- The stuffed region of a payload: every `DLE` doubled (R82, R110). -/
def stuff : Payload → List Byte
  | [] => []
  | b :: r => (if b = Config.dle then [Config.dle, Config.dle] else [b]) ++ stuff r

/-- The XOR of a byte sequence, starting from 0x00 (R83). -/
def xorBytes (l : List Byte) : Byte := l.foldl (· ^^^ ·) 0

/-- The checksum of a payload: the XOR of its stuffed region (R83, R110). -/
def checksum (p : Payload) : Byte := xorBytes (stuff p)

/-- The frame of a payload: start delimiter, stuffed region, end delimiter, and the checksum as it
is, never doubled (R80, R84, R110). -/
def frameOf (p : Payload) : List Byte :=
  [Config.dle, Config.stx] ++ stuff p ++ [Config.dle, Config.etx] ++ [checksum p]

/-- Reads a stuffed region up to and with the `DLE ETX` that closes it: the payload, and the bytes
after the end delimiter (R80, R82). -/
def unstuff : List Byte → Except DecodeError (Payload × List Byte)
  | [] => .error .truncated
  | [_] => .error .truncated
  | b :: c :: r =>
    if b = Config.dle then
      if c = Config.dle then
        match unstuff r with
        | .ok (p, r') => .ok (Config.dle :: p, r')
        | .error e => .error e
      else if c = Config.etx then .ok ([], r)
      else .error .badFrame
    else
      match unstuff (c :: r) with
      | .ok (p, r') => .ok (b :: p, r')
      | .error e => .error e

/-- Reads a frame as the encoder writes it (R80). -/
def decodeFrame : List Byte → Except DecodeError (Instr × List Byte)
  | d :: x :: r =>
    if d = Config.dle ∧ x = Config.stx then
      match unstuff r with
      | .ok (p, ck :: r') => if ck = checksum p then .ok (.frame p, r') else .error .badFrame
      | .ok (_, []) => .error .truncated
      | .error e => .error e
    else .error .badFrame
  | _ => .error .truncated

/-! ### The decoder's byte map (R91) -/

/-- The row of R91 that a received byte takes in a decoder state; the rows of a state are tried in
the listed order and the first match applies. -/
def classify (st : RxState) (ck b : Byte) : Instr :=
  match st with
  | .idle => if b = Config.dle then .rxIdleDle else .rxIdleOther b
  | .awaitStx =>
    if b = Config.stx then .rxAwaitStxStx
    else if b = Config.dle then .rxAwaitStxDle
    else .rxAwaitStxOther b
  | .inFrame => if b = Config.dle then .rxInFrameDle else .rxInFrameData b
  | .afterDle =>
    if b = Config.dle then .rxAfterDleDle
    else if b = Config.etx then .rxAfterDleEtx
    else .rxAfterDleOther b
  | .awaitChecksum => if b = ck then .rxAwaitChecksumGood b else .rxAwaitChecksumBad b

/-! ### Command tokens (R95) -/

/-- The token a code names: 0x01 to 0x05, and `0x10 + k` for `k` from 1. Whether the block has that
init sequence is `N_INIT`'s to say, when the token is used. -/
def decodeToken (c : Byte) : Except DecodeError Instr :=
  match c.toNat with
  | 1 => .ok .tokenOpen
  | 2 => .ok .tokenOpening
  | 3 => .ok .tokenClose
  | 4 => .ok .tokenClosing
  | 5 => .ok .tokenClosed
  | n => if 0x11 ≤ n then .ok (.tokenInit (c - 0x10)) else .error .unknownCode

/-! ### Operands of the record of an operation (log entry 1) -/

/-- One bit, carried in a byte that is 0 or 1. -/
def takeBit : List Byte → Except DecodeError (Bool × List Byte)
  | [] => .error .truncated
  | b :: r => if b = 0 then .ok (false, r) else if b = 1 then .ok (true, r) else .error .reservedBits

/-- A byte. -/
def takeByte : List Byte → Except DecodeError (Byte × List Byte)
  | [] => .error .truncated
  | b :: r => .ok (b, r)

/-- A time: four bytes, the most significant first. -/
def takeTime : List Byte → Except DecodeError (Time × List Byte)
  | b3 :: b2 :: b1 :: b0 :: r => .ok (b3 ++ b2 ++ b1 ++ b0, r)
  | _ => .error .truncated

/-- A 3-bit code, carried in a byte whose upper five bits are 0. -/
def takePosCode : List Byte → Except DecodeError (BitVec 3 × List Byte)
  | [] => .error .truncated
  | b :: r => if b.toNat < 8 then .ok (b.setWidth 3, r) else .error .reservedBits

/-- A position: a 3-bit code that names one. -/
def takePosition : List Byte → Except DecodeError (Position × List Byte)
  | [] => .error .truncated
  | b :: r =>
    if b.toNat < 8 then
      match positionOfCode (b.setWidth 3) with
      | some p => .ok (p, r)
      | none => .error .unknownCode
    else .error .reservedBits

/-- A payload of any length: each byte after a flag byte 1, and a flag byte 0 at its end. -/
def takePayload : List Byte → Except DecodeError (Payload × List Byte)
  | [] => .error .truncated
  | [f] => if f = 0 then .ok ([], []) else .error .truncated
  | f :: b :: r =>
    if f = 0 then .ok ([], b :: r)
    else if f = 1 then
      match takePayload r with
      | .ok (p, r') => .ok (b :: p, r')
      | .error e => .error e
    else .error .reservedBits

/-- An operand read, then made into the instruction it completes. -/
def withOperand {α : Type} (f : α → Instr) :
    Except DecodeError (α × List Byte) → Except DecodeError (Instr × List Byte)
  | .ok (a, r) => .ok (f a, r)
  | .error e => .error e

/-! ### The decoder -/

/-- `RAWWR`'s operands: the index byte, then the bit. -/
def decodeRawwr : List Byte → Except DecodeError (Instr × List Byte)
  | [] => .error .truncated
  | s :: r => withOperand (Instr.rawwr s) (takeBit r)

/-- `CYCLE`'s operands: the time, then the position code. -/
def decodeCycle (r : List Byte) : Except DecodeError (Instr × List Byte) :=
  match takeTime r with
  | .ok (now, r') => withOperand (Instr.cycle now) (takePosCode r')
  | .error e => .error e

/-- `DOORSTEP`'s operands: the time, then the position. -/
def decodeDoorstep (r : List Byte) : Except DecodeError (Instr × List Byte) :=
  match takeTime r with
  | .ok (now, r') => withOperand (Instr.cycleDoorstep now) (takePosition r')
  | .error e => .error e

/-- The record of a host operation: a byte with the 4-bit code of R92 in bits 3:0 and zeros above,
then the operands (log entry 1). -/
def decodeHostop : List Byte → Except DecodeError (Instr × List Byte)
  | [] => .error .truncated
  | c :: r =>
    match c.toNat with
    | 0x0 => .ok (.reset, r)
    | 0x1 => withOperand Instr.rxbyte (takeByte r)
    | 0x2 => .ok (.dequeue, r)
    | 0x3 => withOperand Instr.select (takeByte r)
    | 0x4 => withOperand Instr.seqtick (takeTime r)
    | 0x5 => decodeRawwr r
    | 0x6 => decodeCycle r
    | 0x7 => withOperand Instr.setmode (takeByte r)
    | 0x8 => withOperand Instr.setlockreq (takeBit r)
    | 0x9 => withOperand Instr.setlatch (takeByte r)
    | 0xA => withOperand Instr.setdebug (takeBit r)
    | 0xB => withOperand Instr.encode (takePayload r)
    | 0xC => .ok (.unassignedC, r)
    | 0xD => .ok (.unassignedD, r)
    | 0xE => .ok (.unassignedE, r)
    | 0xF => .ok (.unassignedF, r)
    | _ => .error .reservedBits

/-- A phase of `CYCLE`: its number in R94, then its operands. -/
def decodePhase : List Byte → Except DecodeError (Instr × List Byte)
  | [] => .error .truncated
  | c :: r =>
    match c.toNat with
    | 1 => .ok (.cycleReconcile, r)
    | 2 => decodeDoorstep r
    | 3 => withOperand Instr.cycleLockstep (takeTime r)
    | 4 => withOperand Instr.cycleSeqtick (takeTime r)
    | _ => .error .unknownCode

/-- `ENQUEUE` has no code (R142): its bytes are its operand, a payload of at most 127 bytes. -/
def decodeSubop (r : List Byte) : Except DecodeError (Instr × List Byte) :=
  match takePayload r with
  | .ok (p, r') =>
    if p.length ≤ Config.maxPayload - 1 then .ok (.enqueue p, r') else .error .reservedBits
  | .error e => .error e

/-- The decoder: the instruction at the head of the bytes of a space, and the bytes after it. Total
on any bytes. -/
def decode : Space → List Byte → Except DecodeError (Instr × List Byte)
  | .hostop, l => decodeHostop l
  | .phase, l => decodePhase l
  | .subop, l => decodeSubop l
  | .wirebyte st ck, l => withOperand (classify st ck) (takeByte l)
  | .wireframe, l => decodeFrame l
  | .token, [] => .error .truncated
  | .token, c :: r =>
    match decodeToken c with
    | .ok i => .ok (i, r)
    | .error e => .error e

/-- The bytes of a table word, lowest bits first, then zeros past the longest record of operands of
zeros (spec/opcode_table.json's numbering). -/
def tableBytes (nbits w : Nat) : List Byte :=
  (List.range ((nbits + 7) / 8)).map (fun k => BitVec.ofNat 8 (w >>> (8 * k))) ++ List.replicate 8 0

/-- The host operation the decoder reads from a table word. -/
def decodeTableWord (nbits w : Nat) : Option Instr :=
  match decode .hostop (tableBytes nbits w) with
  | .ok (i, _) => some i
  | .error _ => none

/-! ### The encoder -/

/-- A bit as a byte. -/
def bitBytes (v : Bool) : List Byte := if v then [1] else [0]

/-- A time as four bytes, the most significant first. -/
def timeBytes (t : Time) : List Byte :=
  [t.extractLsb' 24 8, t.extractLsb' 16 8, t.extractLsb' 8 8, t.extractLsb' 0 8]

/-- A payload, each byte flagged, and its end. -/
def payloadBytes : Payload → List Byte
  | [] => [0]
  | b :: r => 1 :: b :: payloadBytes r

/-- The bytes of an instruction in its space. -/
def encode : Instr → List Byte
  | .reset => [0x00]
  | .rxbyte b => [0x01, b]
  | .dequeue => [0x02]
  | .select token => [0x03, token]
  | .seqtick now => 0x04 :: timeBytes now
  | .rawwr s v => 0x05 :: s :: bitBytes v
  | .cycle now pos => 0x06 :: (timeBytes now ++ [pos.setWidth 8])
  | .setmode m => [0x07, m]
  | .setlockreq v => 0x08 :: bitBytes v
  | .setlatch i => [0x09, i]
  | .setdebug v => 0x0A :: bitBytes v
  | .encode p => 0x0B :: payloadBytes p
  | .unassignedC => [0x0C]
  | .unassignedD => [0x0D]
  | .unassignedE => [0x0E]
  | .unassignedF => [0x0F]
  | .cycleReconcile => [0x01]
  | .cycleDoorstep now pos => 0x02 :: (timeBytes now ++ [(positionCode pos).setWidth 8])
  | .cycleLockstep now => 0x03 :: timeBytes now
  | .cycleSeqtick now => 0x04 :: timeBytes now
  | .enqueue p => payloadBytes p
  | .rxIdleDle | .rxAwaitStxDle | .rxInFrameDle | .rxAfterDleDle => [Config.dle]
  | .rxAwaitStxStx => [Config.stx]
  | .rxAfterDleEtx => [Config.etx]
  | .rxIdleOther b | .rxAwaitStxOther b | .rxInFrameData b | .rxAfterDleOther b
  | .rxAwaitChecksumGood b | .rxAwaitChecksumBad b => [b]
  | .frame p => frameOf p
  | .tokenOpen => [0x01]
  | .tokenOpening => [0x02]
  | .tokenClose => [0x03]
  | .tokenClosing => [0x04]
  | .tokenClosed => [0x05]
  | .tokenInit k => [0x10 + k]

/-- Whether an instruction's row belongs to an encoding space. The last row of a state's checksum
test is met against the running checksum it is read with (R91). -/
def inSpace : Instr → Space → Bool
  | .reset, sp | .rxbyte _, sp | .dequeue, sp | .select _, sp | .seqtick _, sp | .rawwr _ _, sp
  | .cycle _ _, sp | .setmode _, sp | .setlockreq _, sp | .setlatch _, sp | .setdebug _, sp
  | .encode _, sp | .unassignedC, sp | .unassignedD, sp | .unassignedE, sp | .unassignedF, sp =>
    sp = .hostop
  | .cycleReconcile, sp | .cycleDoorstep _ _, sp | .cycleLockstep _, sp | .cycleSeqtick _, sp =>
    sp = .phase
  | .enqueue _, sp => sp = .subop
  | .rxIdleDle, .wirebyte st _ | .rxIdleOther _, .wirebyte st _ => st = .idle
  | .rxAwaitStxStx, .wirebyte st _ | .rxAwaitStxDle, .wirebyte st _
  | .rxAwaitStxOther _, .wirebyte st _ => st = .awaitStx
  | .rxInFrameDle, .wirebyte st _ | .rxInFrameData _, .wirebyte st _ => st = .inFrame
  | .rxAfterDleDle, .wirebyte st _ | .rxAfterDleEtx, .wirebyte st _
  | .rxAfterDleOther _, .wirebyte st _ => st = .afterDle
  | .rxAwaitChecksumGood b, .wirebyte st ck => st = .awaitChecksum && b = ck
  | .rxAwaitChecksumBad b, .wirebyte st ck => st = .awaitChecksum && b ≠ ck
  | .rxIdleDle, _ | .rxIdleOther _, _ | .rxAwaitStxStx, _ | .rxAwaitStxDle, _
  | .rxAwaitStxOther _, _ | .rxInFrameDle, _ | .rxInFrameData _, _ | .rxAfterDleDle, _
  | .rxAfterDleEtx, _ | .rxAfterDleOther _, _ | .rxAwaitChecksumGood _, _
  | .rxAwaitChecksumBad _, _ => false
  | .frame _, sp => sp = .wireframe
  | .tokenOpen, sp | .tokenOpening, sp | .tokenClose, sp | .tokenClosing, sp | .tokenClosed, sp
  | .tokenInit _, sp => sp = .token

end Sys2Proof
end

