-- ==== Sys2Proof/Machine/State.lean ====
section
/-! DEFINITION. The state of the block, its outputs, the reasons a step can stop, and reset. -/

namespace Sys2Proof.Machine

/-- `rx_buf` as data: the bytes written since the last reset, with their indices (R63; log
entry 7). -/
abbrev Memory := List Host.Cell

/-- The four 1-bit flags of a sensor register file, `raw` or `stable` (R38, R39). -/
structure SensorFlags where
  /-- Flag 0, `AIR_A`. -/
  airA : Bool
  /-- Flag 1, `AIR_B`. -/
  airB : Bool
  /-- Flag 2, `RADAR_A`. -/
  radarA : Bool
  /-- Flag 3, `RADAR_B`. -/
  radarB : Bool
deriving DecidableEq, Repr

/-- The diagnostic events, with what each records (R251). -/
inductive Event where
  /-- `E_ESC`: the offending byte (R125). -/
  | eEsc (b : Byte)
  /-- `E_CKSUM`: the byte received and the checksum computed (R127). -/
  | eCksum (received computed : Byte)
  /-- `E_OVERSIZE` (R126). -/
  | eOversize
  /-- `E_INCONSISTENT`: the control state before the change, and the position (R201). -/
  | eInconsistent (st : CtlState) (pos : Position)
  /-- `E_HW_ABSENT`: reserved, raised by no rule (R254). -/
  | eHwAbsent
  /-- `I_RXLOG`: the payload, and the queue's length after the enqueue (R142). -/
  | iRxlog (p : Payload) (depth : Nat)
  /-- `I_TXLOG`: the payload transmitted (R158). -/
  | iTxlog (p : Payload)
  /-- `I_SENSOR`: the sensor, and its new stable value (R173). -/
  | iSensor (s : Sensor) (v : Bool)
  /-- `I_STATE`: the old control state and the new one (R186). -/
  | iState (old new : CtlState)
  /-- `I_LOCK`: the relay's level, and `lock_active` (R216, R218). -/
  | iLock (relay active : Bool)
deriving DecidableEq, Repr

/-- One record of the output stream (R16, R241). -/
inductive Output where
  /-- A diagnostic event (R250, R251). -/
  | diag (e : Event)
  /-- `NewMsg(p)` (R144). -/
  | newMsg (p : Payload)
  /-- `LockReminder(v)` (R219). -/
  | lockReminder (v : Bool)
  /-- `TX(frame)`: the bytes of one frame, uninterrupted (R16, R66). -/
  | tx (frame : List Byte)
deriving DecidableEq, Repr

/-- The result an operation returns (R92, R241). -/
inductive Result where
  /-- No operation has returned a result yet. -/
  | none
  /-- `DEQUEUE` returned a payload, or none (R146). -/
  | dequeued (p : Option Payload)
  /-- `SELECT` returned `ok` (R156). -/
  | selected (ok : Bool)
  /-- `ENCODE` returned a frame (R110). -/
  | encoded (frame : List Byte)
deriving DecidableEq, Repr

/-- The agents that act on the block (R17, R60, R267). -/
inductive Agent where
  /-- The control loop, the one cooperative thread. -/
  | controlLoop
  /-- The edge handler of a sensor, asynchronous to the loop. -/
  | edgeHandler (x : Sensor)
deriving DecidableEq, Repr

/-- One move of an agent, waiting for its step (R60, R267). An asynchronous agent has a single move,
the `RAWWR` of its own sensor; it has no way to issue anything else (R172, R256, R290). -/
inductive Move where
  /-- The control loop issues the operation of a record (log entry 1). -/
  | loop (record : List Byte)
  /-- The edge handler of sensor `x` issues `RAWWR x v`. -/
  | edge (x : Sensor) (v : Bool)
deriving DecidableEq, Repr

/-- The whole state. The fields from `rxState` to `reminderLast` are the registers and memories of
10_state.md R44; the last five are the model's own (INVENTORY.md, "State"). -/
structure State where
  /-- `rx_state` (R26). -/
  rxState : RxState
  /-- `rx_len` (R20). -/
  rxLen : Nat
  /-- `rx_ck` (R20). -/
  rxCk : Byte
  /-- `rx_buf` (R63). -/
  rxBuf : Memory
  /-- `q`, oldest first (R64, R140). -/
  q : List Payload
  /-- `rxlog_valid` (R41). -/
  rxlogValid : Bool
  /-- `rxlog_last` (R41). -/
  rxlogLast : Payload
  /-- `debug_out` (R35). -/
  debugOut : Bool
  /-- `seq_sel_valid` (R22). -/
  seqSelValid : Bool
  /-- `seq_cmd`, a token code (R22). -/
  seqCmd : Byte
  /-- `seq_idx` (R22, R160). -/
  seqIdx : Nat
  /-- `seq_last_valid` (R22). -/
  seqLastValid : Bool
  /-- `seq_last` (R22). -/
  seqLast : Time
  /-- `txlog_valid` (R42). -/
  txlogValid : Bool
  /-- `txlog_last` (R42). -/
  txlogLast : Payload
  /-- `raw[0..3]` (R38). -/
  raw : SensorFlags
  /-- `stable[0..3]` (R39). -/
  stable : SensorFlags
  /-- `sw_latch[0..N_SWITCH-1]` (R40). -/
  swLatch : List Bool
  /-- `mode` (R33). -/
  mode : Byte
  /-- `lock_requested` (R34). -/
  lockRequested : Bool
  /-- `pos_last` (R36). -/
  posLast : Position
  /-- `ctl_state` (R27). -/
  ctlState : CtlState
  /-- `door_open_since` (R23). -/
  doorOpenSince : Time
  /-- `door_state_last_changed` (R23). -/
  doorStateLastChanged : Time
  /-- `pos_at_entry` (R23). -/
  posAtEntry : Position
  /-- `trigger_release` (R28). -/
  triggerRelease : Bool
  /-- `lock_active` (R29). -/
  lockActive : Bool
  /-- `lock_relay` (R30). -/
  lockRelay : Bool
  /-- `pulse_active` (R30). -/
  pulseActive : Bool
  /-- `pulse_start` (R24). -/
  pulseStart : Time
  /-- `reminder_valid` (R31). -/
  reminderValid : Bool
  /-- `reminder_last` (R24). -/
  reminderLast : Time
  /-- The parameters (R37); no operation writes them (log entry 3). -/
  cfg : Config.Params
  /-- The moves of the agents still to run, in their total order (R60; log entry 2). -/
  pending : List Move
  /-- The output stream, oldest record first (R45; log entry 12). -/
  out : List Output
  /-- The result of the latest operation that returned one (R92; log entry 12). -/
  result : Result
  /-- The resets so far: the counter the free values of `RESET` are drawn at (log entry 6). -/
  epoch : Nat
deriving DecidableEq, Repr

/-- Why a step faults. The block itself has no fault (R129, R263): no run from a state that meets
the decoder's invariant R130 raises the one below. -/
inductive Fault where
  /-- An access to `rx_buf` at an index of 128 or more, which does not exist (R63). Raised by the
  decoder's `Append` (R126) in states no run reaches. Safe: the model stops. -/
  | rxBufIndex (i : Nat)
deriving DecidableEq, Repr

/-- Why a step refuses. -/
inductive Refusal where
  /-- The instruction has no meaning in the model. Raised by no arm of `exec`. Safe. -/
  | notModelled (mnemonic : String)
  /-- The bytes of the control loop's move are no record of an operation (log entry 1): they stand for nothing the
  host can issue. Raised by `step`. Safe: the model stops. -/
  | badRecord (e : DecodeError)
deriving DecidableEq, Repr

/-- All four flags 0. -/
def SensorFlags.allClear : SensorFlags := ⟨false, false, false, false⟩

/-- The machine right after reset: the values of R44 and R280; for the registers those leave
unspecified the values log entry 5 names; `mode` at `MODE_FACTORY_DEFAULT` (R33, R281). -/
def State.reset : State where
  rxState := .idle
  rxLen := 0
  rxCk := 0
  rxBuf := []
  q := []
  rxlogValid := false
  rxlogLast := []
  debugOut := false
  seqSelValid := false
  seqCmd := 0
  seqIdx := 0
  seqLastValid := false
  seqLast := 0
  txlogValid := false
  txlogLast := []
  raw := SensorFlags.allClear
  stable := SensorFlags.allClear
  swLatch := List.replicate Config.deployment.nSwitch false
  mode := Config.deployment.modeFactoryDefault
  lockRequested := false
  posLast := .undefined
  ctlState := .undefined
  doorOpenSince := 0
  doorStateLastChanged := 0
  posAtEntry := .undefined
  triggerRelease := false
  lockActive := false
  lockRelay := false
  pulseActive := false
  pulseStart := 0
  reminderValid := false
  reminderLast := 0
  cfg := Config.deployment
  pending := []
  out := []
  result := .none
  epoch := 0

end Sys2Proof.Machine
end

