-- ==== Sys2Proof/Machine/Operands.lean ====
section
/-! DEFINITION. What the operands select: a sensor's flag, a latch, a mode, a command of the table. -/

namespace Sys2Proof.Machine

/-- The flag of a sensor (R38, R39). -/
def SensorFlags.get (f : SensorFlags) : Sensor → Bool
  | .airA => f.airA
  | .airB => f.airB
  | .radarA => f.radarA
  | .radarB => f.radarB

/-- The flags with one sensor's flag written. -/
def SensorFlags.set (f : SensorFlags) (x : Sensor) (v : Bool) : SensorFlags :=
  match x with
  | .airA => { f with airA := v }
  | .airB => { f with airB := v }
  | .radarA => { f with radarA := v }
  | .radarB => { f with radarB := v }

/-- The mode `MANUAL` (R96). -/
abbrev modeManual : Byte := 2

/-- The mode `AUTOMATIC` (R96). -/
abbrev modeAutomatic : Byte := 3

/-- The code of the token `OPEN` (R95). -/
abbrev tokenOpenCode : Byte := 0x01

/-- The code of the token `OPENING` (R95). -/
abbrev tokenOpeningCode : Byte := 0x02

/-- The code of the token `CLOSE` (R95). -/
abbrev tokenCloseCode : Byte := 0x03

/-- The code of the token `CLOSING` (R95). -/
abbrev tokenClosingCode : Byte := 0x04

/-- The code of the token `CLOSED` (R95). -/
abbrev tokenClosedCode : Byte := 0x05

/-- Whether a code is one of R95's tokens: 0x01 to 0x05, or `0x10 + k` with `1 <= k <= N_INIT`. Every
other code is an unknown token. -/
def isToken (c : Config.Params) (code : Byte) : Bool :=
  (1 ≤ code.toNat && code.toNat ≤ 5) || (0x11 ≤ code.toNat && code.toNat ≤ 0x10 + c.nInit)

/-- `COMMANDS[code]`: the definition a token names, if it is a key of the table (R12, R156; a code
that R95 calls unknown names none, log entry 8). -/
def commandOf (c : Config.Params) (code : Byte) : Option Config.CommandDef :=
  if isToken c code then c.commands.lookup code else none

/-- The code of the token `INIT_k`, for a `k` of at least 1 whose code fits a byte (R95). -/
def tokenInitCode (k : Byte) : Option Byte :=
  if 1 ≤ k.toNat ∧ k.toNat ≤ 0xEF then some (0x10 + k) else none

end Sys2Proof.Machine
end

