-- ==== Sys2Proof/Machine/Ops.lean ====
section
/-! DEFINITION. The named operations over time, memory, outputs and results that the meanings share. -/

namespace Sys2Proof.Machine

/-! ### Time -/

/-- `elapsed(now, t) = (now - t) mod 2^W_TIME` (R15). -/
abbrev elapsed (now t : Time) : Time := now - t

/-- The guard every timer uses: `elapsed(now, stamp) >= duration`, unsigned (R233, R268). -/
def hasElapsed (now stamp duration : Time) : Bool := duration ≤ elapsed now stamp

/-! ### Memory -/

/-- The byte last written at an index, if any (R63). -/
def Memory.read : Memory → Nat → Option Byte
  | [], _ => none
  | (a', v) :: r, a => if a = a' then some v else Memory.read r a

/-- The memory with one byte written; the indices stay in rising order. -/
def Memory.write : Memory → Nat → Byte → Memory
  | [], a, v => [(a, v)]
  | (a', v') :: r, a, v =>
    if a < a' then (a, v) :: (a', v') :: r
    else if a = a' then (a, v) :: r
    else (a', v') :: Memory.write r a v

/-- The one canonical form of a memory: indices strictly rising, none above 127 (R63). An unlisted
index reads as no written byte, so no entry equals what an unlisted index reads as. -/
abbrev Memory.wf (m : Memory) : Prop :=
  List.Pairwise (fun x y => x.1 < y.1) m ∧ ∀ c ∈ m, c.1 < Config.maxPayload

/-- What `rx_buf[a]` reads as: the byte written, or a free value where nothing has written one since
the last reset (R44; log entry 7). -/
def State.rxByte (s : State) (a : Nat) : Byte :=
  (Memory.read s.rxBuf a).getD (Config.freeRxByte s.epoch a)

/-- The slice `rx_buf[0 .. rx_len-1]` (R63, R127). -/
def State.rxPayload (s : State) : Payload := (List.range s.rxLen).map s.rxByte

/-- `rx_buf[rx_len] <- v` (R126). An index that does not exist faults (R63). -/
def storeRxByte (v : Byte) (s : State) : Host.Outcome State Fault Refusal :=
  if s.rxLen < Config.maxPayload then .next { s with rxBuf := Memory.write s.rxBuf s.rxLen v }
  else .fault (.rxBufIndex s.rxLen)

/-! ### Outputs, and what stands in place of exceptions -/

/-- Appends a record to the output stream (R16, R45). -/
def emitOutput (o : Output) (s : State) : State := { s with out := s.out ++ [o] }

/-- `emit E(info)`: appends an informational report (R16, R250). -/
def emit (e : Event) (s : State) : State := emitOutput (.diag e) s

/-- `raise E(info)`: appends an error event. It saves nothing, masks nothing and transfers control
nowhere (R250, R263); the local recovery stands in the rule that raises it, and there is no return
(R264). This is the whole of exception entry on this hardware. -/
def raise (e : Event) (s : State) : State := emit e s

/-- `TX(frame)`: the frame's bytes appended to the serial output in one run (R16, R66). -/
def transmit (frame : List Byte) (s : State) : State := emitOutput (.tx frame) s

/-- The code of an event (R251). -/
def Event.code : Event → Byte
  | .eEsc _ => 0x01
  | .eCksum _ _ => 0x02
  | .eOversize => 0x03
  | .eInconsistent _ _ => 0x04
  | .eHwAbsent => 0x05
  | .iRxlog _ _ => 0x10
  | .iTxlog _ => 0x11
  | .iSensor _ _ => 0x12
  | .iState _ _ => 0x13
  | .iLock _ _ => 0x15

/-- The serial bytes of one output record. -/
def Output.serialBytes : Output → List Byte
  | .tx frame => frame
  | _ => []

/-- The serial output stream: the concatenation of all transmitted frames (R66, R241). -/
def State.serialOut (s : State) : List Byte := s.out.flatMap Output.serialBytes

/-! ### Status outputs (R36, R147, R225) -/

/-- `ctl_status` (R36). -/
def State.ctlStatus (s : State) : CtlState := s.ctlState

/-- `lock_status` (R36, R225). -/
def State.lockStatus (s : State) : Bool := s.lockActive

/-- `pos_status` (R36). -/
def State.posStatus (s : State) : Position := s.posLast

/-- `q_depth` (R36, R147). -/
def State.qDepth (s : State) : Nat := s.q.length

/-! ### Results and sequencing -/

/-- The state with the result an operation returns (R92). -/
def returning (r : Result) (s : State) : State := { s with result := r }

/-- One operation after another, stopping at a fault or a refusal (R17). -/
def andThen (o : Host.Outcome State Fault Refusal)
    (f : State → Host.Outcome State Fault Refusal) : Host.Outcome State Fault Refusal :=
  match o with
  | .next s => f s
  | .fault r => .fault r
  | .refused r => .refused r

end Sys2Proof.Machine
end

