-- ==== Sys2Proof/Machine/Flags.lean ====
section
/-! DEFINITION. The conditions the units compute from the state: triggers, gates, pending requests and
the two log suppressions. -/

namespace Sys2Proof.Machine

/-- The door step acts only in `MANUAL` and `AUTOMATIC`; any other mode byte makes it inert (R185,
R202). -/
def doorStepActive (s : State) : Bool := s.mode = modeManual || s.mode = modeAutomatic

/-- Both air-presence sensors are clear (R191). -/
def airClear (s : State) : Bool := !s.stable.get .airA && !s.stable.get .airB

/-- At least one radar sensor is active (R195). -/
def radarActive (s : State) : Bool := s.stable.get .radarA || s.stable.get .radarB

/-- All four sensors are clear (R190). -/
def allSensorsClear (s : State) : Bool := airClear s && !radarActive s

/-- Some switch latch is set (R191, R195). -/
def latchSet (s : State) : Bool := s.swLatch.any id

/-- The door has been open at least the minimum hold time (R190). -/
def heldOpen (now : Time) (s : State) : Bool := hasElapsed now s.doorOpenSince s.cfg.minHold

/-- The release trigger of the `OPEN` arm, by mode (R190, R191). -/
def releaseTrigger (now : Time) (s : State) : Bool :=
  if s.mode = modeAutomatic then allSensorsClear s && heldOpen now s else airClear s && latchSet s

/-- The open trigger of the `CLOSED` arm, by mode (R195). -/
def openTrigger (s : State) : Bool :=
  if s.mode = modeAutomatic then radarActive s else latchSet s

/-- The transition timeout has run out (R200). -/
def transitionExpired (now : Time) (s : State) : Bool :=
  hasElapsed now s.doorStateLastChanged s.cfg.transitionTimeout

/-- A lock or unlock request is pending (R217). -/
def requestPending (s : State) : Bool := s.lockRequested != s.lockActive

/-- The door counts as closed for the lock step (R215, R218). -/
def doorFullyClosed (s : State) : Bool := s.ctlState = .closed || s.ctlState = .closedLocked

/-- The pulse duration has elapsed (R216). -/
def pulseOver (now : Time) (s : State) : Bool := hasElapsed now s.pulseStart s.cfg.lockPulseDuration

/-- A reminder is due (R219). -/
def reminderDue (now : Time) (s : State) : Bool :=
  !s.reminderValid || hasElapsed now s.reminderLast s.cfg.reminderInterval

/-- The sequencer's interval gate is open (R158, R159). -/
def sendGateOpen (now : Time) (s : State) : Bool :=
  !s.seqLastValid || hasElapsed now s.seqLast s.cfg.sendInterval

/-- An inbound payload is logged: debug output is on, nothing was logged since reset, or it differs
from the last one logged (R142, R143). -/
def rxlogDue (p : Payload) (s : State) : Bool := s.debugOut || !s.rxlogValid || s.rxlogLast != p

/-- A transmitted payload is logged, by the same policy (R158, R161). -/
def txlogDue (p : Payload) (s : State) : Bool := s.debugOut || !s.txlogValid || s.txlogLast != p

end Sys2Proof.Machine
end

