-- ==== Sys2Proof/Machine/Queue.lean ====
section
/-! DEFINITION. The transport queue: `ENQUEUE` and `DEQUEUE` (42_transport_queue.md). -/

namespace Sys2Proof.Machine

/-- Phase 1 of `ENQUEUE`: drop the oldest entry of a full queue, then append (R142). -/
def enqueueStore (p : Payload) (s : State) : State :=
  { s with q := (if s.q.length = s.cfg.queueCap then s.q.drop 1 else s.q) ++ [p] }

/-- Phase 2 of `ENQUEUE`: the suppressed log, with the depth after the enqueue (R142, R143, R147). -/
def enqueueLog (p : Payload) (s : State) : State :=
  if rxlogDue p s then { emit (.iRxlog p s.qDepth) s with rxlogLast := p, rxlogValid := true } else s

/-- `ENQUEUE p`: store, log, notify, in this order (R142, R144). -/
def enqueue (p : Payload) (s : State) : State :=
  emitOutput (.newMsg p) (enqueueLog p (enqueueStore p s))

/-- The meaning of `ENQUEUE` (R142). -/
def execEnqueue (p : Payload) (s : State) : Host.Outcome State Fault Refusal := .next (enqueue p s)

/-- The meaning of `DEQUEUE`: the oldest payload leaves the queue and is the result; an empty queue
gives none and stays (R146). -/
def execDequeue (s : State) : Host.Outcome State Fault Refusal :=
  match s.q with
  | [] => .next (returning (.dequeued none) s)
  | p :: r => .next (returning (.dequeued (some p)) { s with q := r })

end Sys2Proof.Machine
end

