-- ==== Sys2Proof/Machine/Codec.lean ====
section
/-! DEFINITION. The frame codec: `ENCODE`, `RXBYTE`, the rows of the byte map, and a whole frame
received (40_frame_encoder.md, 41_frame_decoder.md). -/

namespace Sys2Proof.Machine

/-! ### Encoder -/

/-- The meaning of `ENCODE p`: returns the frame; reads and writes no register, transmits nothing
(R110, R115). -/
def execEncode (p : Payload) (s : State) : Host.Outcome State Fault Refusal :=
  .next (returning (.encoded (frameOf p)) s)

/-- One round of the streaming encoder: the output so far and the accumulator (R111). -/
def streamByte (acc : List Byte × Byte) (b : Byte) : List Byte × Byte :=
  if b = Config.dle then
    (acc.1 ++ [Config.dle, Config.dle], (acc.2 ^^^ Config.dle) ^^^ Config.dle)
  else (acc.1 ++ [b], acc.2 ^^^ b)

/-- The streaming form of `ENCODE` (R111). -/
def encodeStreaming (p : Payload) : List Byte :=
  let acc := p.foldl streamByte ([Config.dle, Config.stx], 0)
  acc.1 ++ [Config.dle, Config.etx, acc.2]

/-! ### Decoder -/

/-- The oversize guard, tested after the append (R126). -/
def oversizeGuard (s : State) : State :=
  if s.rxLen = Config.maxPayload then { raise .eOversize s with rxState := .idle } else s

/-- `Append(v)`: the buffer write, the count, the oversize guard (R126). -/
def appendByte (v : Byte) (s : State) : Host.Outcome State Fault Refusal :=
  andThen (storeRxByte v s) (fun s1 => .next (oversizeGuard { s1 with rxLen := s1.rxLen + 1 }))

/-- State `Idle` (R122). -/
def rxIdle (b : Byte) (s : State) : State :=
  if b = Config.dle then { s with rxState := .awaitStx } else s

/-- State `AwaitStx` (R123). -/
def rxAwaitStx (b : Byte) (s : State) : State :=
  if b = Config.stx then { s with rxState := .inFrame, rxLen := 0, rxCk := 0 }
  else if b = Config.dle then s
  else { s with rxState := .idle }

/-- State `InFrame` (R124). -/
def rxInFrame (b : Byte) (s : State) : Host.Outcome State Fault Refusal :=
  if b = Config.dle then .next { s with rxState := .afterDle }
  else appendByte b { s with rxCk := s.rxCk ^^^ b }

/-- State `AfterDle`; the escaped `DLE` is XORed in twice (R125). -/
def rxAfterDle (b : Byte) (s : State) : Host.Outcome State Fault Refusal :=
  if b = Config.dle then
    appendByte Config.dle
      { s with rxCk := (s.rxCk ^^^ Config.dle) ^^^ Config.dle, rxState := .inFrame }
  else if b = Config.etx then .next { s with rxState := .awaitChecksum }
  else .next { raise (.eEsc b) s with rxState := .idle }

/-- State `AwaitChecksum` (R127). -/
def rxAwaitChecksum (b : Byte) (s : State) : State :=
  if b = s.rxCk then { enqueue s.rxPayload s with rxState := .idle }
  else { raise (.eCksum b s.rxCk) s with rxState := .idle }

/-- One received byte, in the state the decoder is in (R120). -/
def receiveByte (b : Byte) (s : State) : Host.Outcome State Fault Refusal :=
  match s.rxState with
  | .idle => .next (rxIdle b s)
  | .awaitStx => .next (rxAwaitStx b s)
  | .inFrame => rxInFrame b s
  | .afterDle => rxAfterDle b s
  | .awaitChecksum => .next (rxAwaitChecksum b s)

/-- `FEED`: a run of received bytes (R100). -/
def feed : List Byte → State → Host.Outcome State Fault Refusal
  | [], s => .next s
  | b :: r, s => andThen (receiveByte b s) (feed r)

/-- The meaning of `RXBYTE b` (R120). -/
def execRxbyte (b : Byte) (s : State) : Host.Outcome State Fault Refusal := receiveByte b s

/-- The meaning of `FRAME(p)` on the wire: the decoder receives the frame's bytes in order (R80, R100;
log entry 11). -/
def execFrame (p : Payload) (s : State) : Host.Outcome State Fault Refusal := feed (frameOf p) s

/-! ### The rows of the byte map (R91) -/

/-- A row of R91 received as byte `b`: its effect where the row is the one that applies, nothing
elsewhere (log entry 10). -/
def atRow (row : Instr) (b : Byte) (effect : State → Host.Outcome State Fault Refusal) (s : State) :
    Host.Outcome State Fault Refusal :=
  if classify s.rxState s.rxCk b = row then effect s else .next s

/-- `Idle`, `DLE`: to `AwaitStx` (R91, R122). -/
def execRxIdleDle (s : State) : Host.Outcome State Fault Refusal :=
  atRow .rxIdleDle Config.dle (fun s => .next { s with rxState := .awaitStx }) s

/-- `Idle`, other: ignored (R89, R91, R122). -/
def execRxIdleOther (b : Byte) (s : State) : Host.Outcome State Fault Refusal :=
  atRow (.rxIdleOther b) b (fun s => .next { s with rxState := .idle }) s

/-- `AwaitStx`, `STX`: to `InFrame` with an empty buffer (R91, R123). -/
def execRxAwaitStxStx (s : State) : Host.Outcome State Fault Refusal :=
  atRow .rxAwaitStxStx Config.stx
    (fun s => .next { s with rxState := .inFrame, rxLen := 0, rxCk := 0 }) s

/-- `AwaitStx`, `DLE`: stays (R87, R91, R123). -/
def execRxAwaitStxDle (s : State) : Host.Outcome State Fault Refusal :=
  atRow .rxAwaitStxDle Config.dle (fun s => .next { s with rxState := .awaitStx }) s

/-- `AwaitStx`, other: to `Idle` (R89, R91, R123). -/
def execRxAwaitStxOther (b : Byte) (s : State) : Host.Outcome State Fault Refusal :=
  atRow (.rxAwaitStxOther b) b (fun s => .next { s with rxState := .idle }) s

/-- `InFrame`, `DLE`: to `AfterDle` (R91, R124). -/
def execRxInFrameDle (s : State) : Host.Outcome State Fault Refusal :=
  atRow .rxInFrameDle Config.dle (fun s => .next { s with rxState := .afterDle }) s

/-- `InFrame`, data: XORed in and appended (R91, R124, R126). -/
def execRxInFrameData (b : Byte) (s : State) : Host.Outcome State Fault Refusal :=
  atRow (.rxInFrameData b) b (fun s => appendByte b { s with rxCk := s.rxCk ^^^ b }) s

/-- `AfterDle`, `DLE`: one `DLE` appended, the checksum unchanged, back to `InFrame` (R91, R125,
R126). -/
def execRxAfterDleDle (s : State) : Host.Outcome State Fault Refusal :=
  atRow .rxAfterDleDle Config.dle
    (fun s => appendByte Config.dle { s with rxState := .inFrame }) s

/-- `AfterDle`, `ETX`: to `AwaitChecksum` (R91, R125). -/
def execRxAfterDleEtx (s : State) : Host.Outcome State Fault Refusal :=
  atRow .rxAfterDleEtx Config.etx (fun s => .next { s with rxState := .awaitChecksum }) s

/-- `AfterDle`, other: `E_ESC`, to `Idle` (R88, R91, R125). -/
def execRxAfterDleOther (b : Byte) (s : State) : Host.Outcome State Fault Refusal :=
  atRow (.rxAfterDleOther b) b (fun s => .next { raise (.eEsc b) s with rxState := .idle }) s

/-- `AwaitChecksum`, good: the payload is enqueued, to `Idle` (R91, R127). -/
def execRxAwaitChecksumGood (b : Byte) (s : State) : Host.Outcome State Fault Refusal :=
  atRow (.rxAwaitChecksumGood b) b
    (fun s => .next { enqueue s.rxPayload s with rxState := .idle }) s

/-- `AwaitChecksum`, bad: `E_CKSUM`, to `Idle` (R91, R127). -/
def execRxAwaitChecksumBad (b : Byte) (s : State) : Host.Outcome State Fault Refusal :=
  atRow (.rxAwaitChecksumBad b) b
    (fun s => .next { raise (.eCksum b s.rxCk) s with rxState := .idle }) s

end Sys2Proof.Machine
end

