-- ==== Sys2Proof/Machine/Debounce.lean ====
section
/-! DEFINITION. The sensor debounce layer: `RAWWR` and `RECONCILE` (44_sensor_debounce.md). -/

namespace Sys2Proof.Machine

/-- The meaning of `RAWWR s v`: the raw flag of sensor `s`, and nothing else (R171); an index that
names no sensor makes it a no-op (R93). -/
def execRawwr (s : Byte) (v : Bool) (st : State) : Host.Outcome State Fault Refusal :=
  match sensorOfIndex s with
  | some x => .next { st with raw := st.raw.set x v }
  | none => .next st

/-- One round of `RECONCILE`: the raw flag copied when it differs, and reported (R173). -/
def reconcileSensor (x : Sensor) (s : State) : State :=
  if s.raw.get x != s.stable.get x then
    emit (.iSensor x (s.raw.get x)) { s with stable := s.stable.set x (s.raw.get x) }
  else s

/-- `RECONCILE`: the four sensors in index order (R173). -/
def reconcile (s : State) : State :=
  reconcileSensor .radarB (reconcileSensor .radarA (reconcileSensor .airB (reconcileSensor .airA s)))

/-- The meaning of phase 1 of `CYCLE` (R94, R173). -/
def execCycleReconcile (s : State) : Host.Outcome State Fault Refusal := .next (reconcile s)

end Sys2Proof.Machine
end

