-- ==== Sys2Proof/Machine/Sequencer.lean ====
section
/-! DEFINITION. The command sequencer: `SELECT`, the command tokens, `SEQTICK` (43_command_sequencer.md). -/

namespace Sys2Proof.Machine

/-- Whether `SELECT` of a code succeeds: the code is a key of `COMMANDS` (R156). -/
def selectOk (code : Byte) (s : State) : Bool := (commandOf s.cfg code).isSome

/-- The effect of `SELECT` on the sequencer's registers; an unknown token changes none (R156,
R157). -/
def selectCommand (code : Byte) (s : State) : State :=
  if selectOk code s then
    { s with seqCmd := code, seqSelValid := true, seqIdx := 0, seqLastValid := false }
  else s

/-- `SELECT` as the host issues it: the effect, and `ok` as the result (R156, R157). -/
def hostSelect (code : Byte) (s : State) : State :=
  returning (.selected (selectOk code s)) (selectCommand code s)

/-- The meaning of `SELECT token` (R156, R157). -/
def execSelect (token : Byte) (s : State) : Host.Outcome State Fault Refusal :=
  .next (hostSelect token s)

/-- The token `OPEN` selected (R95, R101). -/
def execTokenOpen (s : State) : Host.Outcome State Fault Refusal := .next (hostSelect tokenOpenCode s)

/-- The token `OPENING` selected (R95, R101). -/
def execTokenOpening (s : State) : Host.Outcome State Fault Refusal :=
  .next (hostSelect tokenOpeningCode s)

/-- The token `CLOSE` selected (R95, R101). -/
def execTokenClose (s : State) : Host.Outcome State Fault Refusal :=
  .next (hostSelect tokenCloseCode s)

/-- The token `CLOSING` selected (R95, R101). -/
def execTokenClosing (s : State) : Host.Outcome State Fault Refusal :=
  .next (hostSelect tokenClosingCode s)

/-- The token `CLOSED` selected (R95, R101). -/
def execTokenClosed (s : State) : Host.Outcome State Fault Refusal :=
  .next (hostSelect tokenClosedCode s)

/-- The token `INIT_k` selected; a `k` that has no code is an unknown token (R95, R157). -/
def execTokenInit (k : Byte) (s : State) : Host.Outcome State Fault Refusal :=
  match tokenInitCode k with
  | some code => .next (hostSelect code s)
  | none => .next (returning (.selected false) s)

/-- The payload the next transmission carries: the next prefix, or the final payload once the
prefixes are exhausted (R158, R160). -/
def nextPayload (d : Config.CommandDef) (idx : Nat) : Payload := (d.prefixes[idx]?).getD d.final

/-- The prefix index after a transmission (R158, R160). -/
def nextIndex (d : Config.CommandDef) (idx : Nat) : Nat :=
  if idx < d.prefixes.length then idx + 1 else idx

/-- The suppressed log of a transmission (R158, R161). -/
def txLog (p : Payload) (s : State) : State :=
  if txlogDue p s then { emit (.iTxlog p) s with txlogLast := p, txlogValid := true } else s

/-- One transmission: the frame, the stamp, the log (R158). -/
def sendNext (now : Time) (d : Config.CommandDef) (s : State) : State :=
  txLog (nextPayload d s.seqIdx)
    { transmit (frameOf (nextPayload d s.seqIdx)) s with
      seqIdx := nextIndex d s.seqIdx, seqLast := now, seqLastValid := true }

/-- `SEQTICK now` (R158, R159, R165). A selected command that is no key of the table sends nothing:
no run reaches that (log entry 9). -/
def seqTick (now : Time) (s : State) : State :=
  if s.seqSelValid && sendGateOpen now s then
    match commandOf s.cfg s.seqCmd with
    | some d => sendNext now d s
    | none => s
  else s

/-- The meaning of `SEQTICK now` (R158). -/
def execSeqtick (now : Time) (s : State) : Host.Outcome State Fault Refusal := .next (seqTick now s)

/-- The meaning of phase 4 of `CYCLE` (R94, R158). -/
def execCycleSeqtick (now : Time) (s : State) : Host.Outcome State Fault Refusal :=
  .next (seqTick now s)

end Sys2Proof.Machine
end

