-- ==== Sys2Proof/Machine/Door.lean ====
section
/-! DEFINITION. The door control state machine, phase 2 of `CYCLE` (45_door_control.md). -/

namespace Sys2Proof.Machine

/-- `SetCtl(new)`: on a change, the report, the state and the stamp (R186). -/
def setCtl (now : Time) (new : CtlState) (s : State) : State :=
  if new ≠ s.ctlState then
    { emit (.iState s.ctlState new) s with ctlState := new, doorStateLastChanged := now }
  else s

/-- The recovery from a position that contradicts the state: `E_INCONSISTENT`, then `UNDEFINED` (R189,
R193, R197, R201). -/
def forceUndefined (now : Time) (pos : Position) (s : State) : State :=
  setCtl now .undefined (raise (.eInconsistent s.ctlState pos) s)

/-- `EnterTransition()`: all latches cleared, the entry position, the state (R198). -/
def enterTransition (now : Time) (pos : Position) (s : State) : State :=
  setCtl now .transition
    { s with swLatch := s.swLatch.map (fun _ => false), posAtEntry := pos }

/-- The action of a trigger: `trigger_release`, and when it fires the command and the entry into
`TRANSITION` (R192, R196). -/
def fireTrigger (now : Time) (pos : Position) (trig : Bool) (command : Byte) (s : State) : State :=
  let s1 := { s with triggerRelease := trig }
  if trig then enterTransition now pos (selectCommand command s1) else s1

/-- Arm `UNDEFINED` (R187). -/
def doorUndefined (now : Time) (pos : Position) (s : State) : State :=
  match pos with
  | .opened => setCtl now .openStart s
  | .closed => setCtl now .closed s
  | .closing | .opening | .undefined => s

/-- Arm `OPEN_START` (R188). -/
def doorOpenStart (now : Time) (s : State) : State :=
  setCtl now .opened { s with doorOpenSince := now }

/-- Arm `OPEN` (R189 to R192). -/
def doorOpened (now : Time) (pos : Position) (s : State) : State :=
  if pos ≠ .opened then forceUndefined now pos s
  else fireTrigger now pos (releaseTrigger now s) tokenCloseCode s

/-- Arm `CLOSED` (R193 to R196). -/
def doorClosed (now : Time) (pos : Position) (s : State) : State :=
  if pos ≠ .closed then forceUndefined now pos s
  else if s.lockActive then setCtl now .closedLocked s
  else fireTrigger now pos (openTrigger s) tokenOpenCode s

/-- Arm `CLOSED_LOCKED` (R197). -/
def doorClosedLocked (now : Time) (pos : Position) (s : State) : State :=
  if pos ≠ .closed then forceUndefined now pos s
  else if s.lockActive then s
  else setCtl now .closed s

/-- Where `TRANSITION` falls back to, by the current position (R200). -/
def fallbackState : Position → CtlState
  | .opened => .openStart
  | .closed => .closed
  | .closing | .opening | .undefined => .undefined

/-- Arm `TRANSITION` (R200). -/
def doorTransition (now : Time) (pos : Position) (s : State) : State :=
  if pos != s.posAtEntry || transitionExpired now s then setCtl now (fallbackState pos) s else s

/-- The first line of `DOORSTEP`: `trigger_release <- 0` (R185, R199). -/
def clearRelease (s : State) : State := { s with triggerRelease := false }

/-- The one arm of the control state (R185). -/
def doorArm (now : Time) (pos : Position) (s : State) : State :=
  match s.ctlState with
  | .undefined => doorUndefined now pos s
  | .openStart => doorOpenStart now s
  | .opened => doorOpened now pos s
  | .closed => doorClosed now pos s
  | .closedLocked => doorClosedLocked now pos s
  | .transition => doorTransition now pos s

/-- `DOORSTEP(now, pos)`: `trigger_release` cleared; inert outside `MANUAL` and `AUTOMATIC`; else the
one arm of the state at the start (R185, R199, R202). -/
def doorStep (now : Time) (pos : Position) (s : State) : State :=
  if doorStepActive s then doorArm now pos (clearRelease s) else clearRelease s

/-- The meaning of phase 2 of `CYCLE` (R94, R185). -/
def execCycleDoorstep (now : Time) (pos : Position) (s : State) :
    Host.Outcome State Fault Refusal := .next (doorStep now pos s)

end Sys2Proof.Machine
end

