-- ==== Sys2Proof/Machine/Lock.lean ====
section
/-! DEFINITION. The lock logic, phase 3 of `CYCLE` (46_lock.md). -/

namespace Sys2Proof.Machine

/-- A pulse in progress: released once its duration has elapsed, and nothing else (R216). -/
def runPulse (now : Time) (s : State) : State :=
  if pulseOver now s then
    emit (.iLock false s.lockActive) { s with lockRelay := false, pulseActive := false }
  else s

/-- Honouring a request: the pulse starts and the belief follows the request (R218). -/
def honourRequest (now : Time) (s : State) : State :=
  emit (.iLock true s.lockRequested)
    { s with
      lockRelay := true, pulseStart := now, pulseActive := true,
      lockActive := s.lockRequested, reminderValid := false }

/-- A request pending while the door is not closed: the reminder, when due (R219). -/
def remind (now : Time) (s : State) : State :=
  if reminderDue now s then
    { emitOutput (.lockReminder s.lockRequested) s with reminderLast := now, reminderValid := true }
  else s

/-- `LOCKSTEP(now)` (R215, R220). -/
def lockStep (now : Time) (s : State) : State :=
  if s.pulseActive then runPulse now s
  else if requestPending s then
    if doorFullyClosed s then honourRequest now s else remind now s
  else { s with reminderValid := false }

/-- The meaning of phase 3 of `CYCLE` (R94, R215). -/
def execCycleLockstep (now : Time) (s : State) : Host.Outcome State Fault Refusal :=
  .next (lockStep now s)

end Sys2Proof.Machine
end

