-- ==== Sys2Proof/Machine/Cycle.lean ====
section
/-! DEFINITION. The control cycle (47_control_cycle_and_host.md R230). -/

namespace Sys2Proof.Machine

/-- The control cycle with a position: `pos_last`, then the four phases in order, each seeing the
writes of the earlier ones (R230, R231). -/
def controlCycle (now : Time) (pos : Position) (s : State) : State :=
  seqTick now (lockStep now (doorStep now pos (reconcile { s with posLast := pos })))

/-- The meaning of `CYCLE now pos`; a position code above 4 makes the whole operation a no-op (R93,
R230). -/
def execCycle (now : Time) (pos : BitVec 3) (s : State) : Host.Outcome State Fault Refusal :=
  match positionOfCode pos with
  | some p => .next (controlCycle now p s)
  | none => .next s

end Sys2Proof.Machine
end

