-- ==== Sys2Proof/Machine/HostWrites.lean ====
section
/-! DEFINITION. The host's writes, the unassigned codes and `RESET` (47_control_cycle_and_host.md,
30_encoding.md R92, 70_reset_and_hazards.md). -/

namespace Sys2Proof.Machine

/-- The meaning of `SETMODE m`: any byte is stored, nothing else changes (R235). -/
def execSetmode (m : Byte) (s : State) : Host.Outcome State Fault Refusal :=
  .next { s with mode := m }

/-- The meaning of `SETLOCKREQ v` (R236). -/
def execSetlockreq (v : Bool) (s : State) : Host.Outcome State Fault Refusal :=
  .next { s with lockRequested := v }

/-- The meaning of `SETLATCH i`: the latch is set; an index of `N_SWITCH` or more makes it a no-op
(R93, R237). -/
def execSetlatch (i : Byte) (s : State) : Host.Outcome State Fault Refusal :=
  .next (if i.toNat < s.cfg.nSwitch then { s with swLatch := s.swLatch.set i.toNat true } else s)

/-- The meaning of `SETDEBUG v` (R238). -/
def execSetdebug (v : Bool) (s : State) : Host.Outcome State Fault Refusal :=
  .next { s with debugOut := v }

/-- Code 0xC selects no operation: ignored, no state change (R92). -/
def execUnassignedC (s : State) : Host.Outcome State Fault Refusal := .next s

/-- Code 0xD selects no operation: ignored, no state change (R92). -/
def execUnassignedD (s : State) : Host.Outcome State Fault Refusal := .next s

/-- Code 0xE selects no operation: ignored, no state change (R92). -/
def execUnassignedE (s : State) : Host.Outcome State Fault Refusal := .next s

/-- Code 0xF selects no operation: ignored, no state change (R92). -/
def execUnassignedF (s : State) : Host.Outcome State Fault Refusal := .next s

/-- The decoder and queue registers after `RESET` (R280). -/
def resetInbound (s : State) : State :=
  { s with
    rxState := .idle, rxLen := 0, rxCk := 0, rxBuf := [], q := [], rxlogValid := false,
    rxlogLast := (Config.freeRxlogLast s.epoch).take (Config.maxPayload - 1), debugOut := false }

/-- The sequencer registers after `RESET` (R280). -/
def resetSequencer (s : State) : State :=
  { s with
    seqSelValid := false, seqCmd := Config.freeSeqCmd s.epoch, seqIdx := 0, seqLastValid := false,
    seqLast := Config.freeSeqLast s.epoch, txlogValid := false,
    txlogLast := Config.freeTxlogLast s.epoch }

/-- The sensors, latches and door control registers after `RESET`; `mode` is not written (R280,
R281). -/
def resetDoor (s : State) : State :=
  { s with
    raw := SensorFlags.allClear, stable := SensorFlags.allClear,
    swLatch := List.replicate s.cfg.nSwitch false, posLast := .undefined, ctlState := .undefined,
    doorOpenSince := Config.freeDoorOpenSince s.epoch,
    doorStateLastChanged := Config.freeDoorStateLastChanged s.epoch,
    posAtEntry := Config.freePosAtEntry s.epoch, triggerRelease := false }

/-- The lock registers after `RESET` (R280). -/
def resetLock (s : State) : State :=
  { s with
    lockRequested := false, lockActive := false, lockRelay := false, pulseActive := false,
    pulseStart := Config.freePulseStart s.epoch, reminderValid := false,
    reminderLast := Config.freeReminderLast s.epoch }

/-- The meaning of `RESET`: every register of R44 at its reset value, those the spec leaves
unspecified at a free value drawn at the counter `epoch`, `mode` kept; no output (R280, R281; log
entry 6). -/
def execReset (s : State) : Host.Outcome State Fault Refusal :=
  .next { resetLock (resetDoor (resetSequencer (resetInbound s))) with epoch := s.epoch + 1 }

end Sys2Proof.Machine
end

