-- ==== Sys2Proof/Machine/Dispatch.lean ====
section
/-! DEFINITION. One arm per instruction, each a call of its meaning. -/

namespace Sys2Proof.Machine

/-- The meaning of every instruction. -/
def exec (i : Instr) (s : State) : Host.Outcome State Fault Refusal :=
  match i with
  | .reset => Sys2Proof.Machine.execReset s
  | .rxbyte b => Sys2Proof.Machine.execRxbyte b s
  | .dequeue => Sys2Proof.Machine.execDequeue s
  | .select token => Sys2Proof.Machine.execSelect token s
  | .seqtick now => Sys2Proof.Machine.execSeqtick now s
  | .rawwr x v => Sys2Proof.Machine.execRawwr x v s
  | .cycle now pos => Sys2Proof.Machine.execCycle now pos s
  | .setmode m => Sys2Proof.Machine.execSetmode m s
  | .setlockreq v => Sys2Proof.Machine.execSetlockreq v s
  | .setlatch k => Sys2Proof.Machine.execSetlatch k s
  | .setdebug v => Sys2Proof.Machine.execSetdebug v s
  | .encode p => Sys2Proof.Machine.execEncode p s
  | .unassignedC => Sys2Proof.Machine.execUnassignedC s
  | .unassignedD => Sys2Proof.Machine.execUnassignedD s
  | .unassignedE => Sys2Proof.Machine.execUnassignedE s
  | .unassignedF => Sys2Proof.Machine.execUnassignedF s
  | .cycleReconcile => Sys2Proof.Machine.execCycleReconcile s
  | .cycleDoorstep now pos => Sys2Proof.Machine.execCycleDoorstep now pos s
  | .cycleLockstep now => Sys2Proof.Machine.execCycleLockstep now s
  | .cycleSeqtick now => Sys2Proof.Machine.execCycleSeqtick now s
  | .enqueue p => Sys2Proof.Machine.execEnqueue p s
  | .rxIdleDle => Sys2Proof.Machine.execRxIdleDle s
  | .rxIdleOther b => Sys2Proof.Machine.execRxIdleOther b s
  | .rxAwaitStxStx => Sys2Proof.Machine.execRxAwaitStxStx s
  | .rxAwaitStxDle => Sys2Proof.Machine.execRxAwaitStxDle s
  | .rxAwaitStxOther b => Sys2Proof.Machine.execRxAwaitStxOther b s
  | .rxInFrameDle => Sys2Proof.Machine.execRxInFrameDle s
  | .rxInFrameData b => Sys2Proof.Machine.execRxInFrameData b s
  | .rxAfterDleDle => Sys2Proof.Machine.execRxAfterDleDle s
  | .rxAfterDleEtx => Sys2Proof.Machine.execRxAfterDleEtx s
  | .rxAfterDleOther b => Sys2Proof.Machine.execRxAfterDleOther b s
  | .rxAwaitChecksumGood b => Sys2Proof.Machine.execRxAwaitChecksumGood b s
  | .rxAwaitChecksumBad b => Sys2Proof.Machine.execRxAwaitChecksumBad b s
  | .frame p => Sys2Proof.Machine.execFrame p s
  | .tokenOpen => Sys2Proof.Machine.execTokenOpen s
  | .tokenOpening => Sys2Proof.Machine.execTokenOpening s
  | .tokenClose => Sys2Proof.Machine.execTokenClose s
  | .tokenClosing => Sys2Proof.Machine.execTokenClosing s
  | .tokenClosed => Sys2Proof.Machine.execTokenClosed s
  | .tokenInit k => Sys2Proof.Machine.execTokenInit k s

end Sys2Proof.Machine
end

