-- ==== Sys2Proof/Machine/Fetch.lean ====
section
/-! DEFINITION. The agents, who may issue what, and where the next operation comes from (log
entry 2). -/

namespace Sys2Proof.Machine

/-- Who makes a move (R60, R267). -/
def Move.agent : Move → Agent
  | .loop _ => .controlLoop
  | .edge x _ => .edgeHandler x

/-- Who may issue what: the edge handler of a sensor its own `RAWWR`, the control loop every other
operation (R17, R92, R267). A duty of the host; no meaning reads it, for the block cannot tell who
issues an operation (R267). -/
def mayIssue (a : Agent) (i : Instr) : Bool :=
  match a, i with
  | .edgeHandler x, .rawwr k _ => k = sensorIndex x
  | .edgeHandler _, _ => false
  | .controlLoop, .rawwr _ _ => false
  | .controlLoop, i => inSpace i .hostop

/-- The one operation that a record of the control loop holds (R92, log entry 1). -/
def recordOp (record : List Byte) : Except DecodeError Instr :=
  match decode .hostop record with
  | .ok (i, []) => .ok i
  | .ok (_, _ :: _) => .error .trailing
  | .error e => .error e

/-- The operation a move issues: a record's, or the `RAWWR` of the handler's sensor (R92, R267). -/
def Move.operation : Move → Except DecodeError Instr
  | .loop record => recordOp record
  | .edge x v => .ok (.rawwr (sensorIndex x) v)

/-- The next operation and the moves after it: none while nothing is pending (R272), an error where
a record is none of an operation. -/
def fetch (s : State) : Except DecodeError (Option (Instr × List Move)) :=
  match s.pending with
  | [] => .ok none
  | m :: r =>
    match m.operation with
    | .ok i => .ok (some (i, r))
    | .error e => .error e

/-- The move that issues an operation given as its record: the handler's for `RAWWR` on a sensor, the
control loop's for every other (R92, R267; an index that names no sensor has no handler, R93). -/
def moveOf (i : Instr) (record : List Byte) : Move :=
  match i with
  | .rawwr k v =>
    match sensorOfIndex k with
    | some x => .edge x v
    | none => .loop record
  | _ => .loop record

/-- The move of a table word, without the zeros past its record; all its bytes as a record of the
control loop where the decoder reads no operation. -/
def wordMove (nbits w : Nat) : Move :=
  match decode .hostop (tableBytes nbits w) with
  | .ok (i, rest) =>
    moveOf i ((tableBytes nbits w).take ((tableBytes nbits w).length - rest.length))
  | .error _ => .loop (tableBytes nbits w)

/-- The state with a table word's operation as the next move; nothing else changes. -/
def placeRecord (nbits w : Nat) (s : State) : State :=
  { s with pending := wordMove nbits w :: s.pending }

end Sys2Proof.Machine
end

