-- ==== Sys2Proof/Machine/Step.lean ====
section
/-! DEFINITION. One step of the machine: the next pending operation, executed to completion. -/

namespace Sys2Proof.Machine

/-- One step (R17): the oldest pending move is taken and its operation executed, whoever issued it
(R267); with nothing pending the block holds its state (R272); bytes that are no operation record
refuse (log entries 1 and 2). -/
def step (s : State) : Host.Outcome State Fault Refusal :=
  match fetch s with
  | .ok none => .next s
  | .ok (some (i, rest)) => exec i { s with pending := rest }
  | .error e => .refused (.badRecord e)

/-- The state whose next step fetches and runs the operation of a table word (log entry 2). -/
def State.withFetchWord (s : State) (nbits w : Nat) : State := placeRecord nbits w s

end Sys2Proof.Machine
end

