-- ==== Sys2Proof/Safety.lean ====
section
/-! DEFINITION. What the claims speak of: the invariants of the block, groups of registers by their
writers, and runs of instructions. -/

namespace Sys2Proof.Safety

open Sys2Proof.Machine

/-! ### Invariants -/

/-- The XOR of the bytes of a payload that are not `DLE` (R83, R130). -/
def plainXor (p : Payload) : Byte := xorBytes (p.filter (· ≠ Config.dle))

/-- The decoder is inside a frame: `InFrame`, `AfterDle` or `AwaitChecksum` (R130). -/
def midFrame (s : State) : Bool :=
  s.rxState = .inFrame || s.rxState = .afterDle || s.rxState = .awaitChecksum

/-- The decoder's invariant (R130, R63): the buffer in canonical form, the length in range, and
inside a frame room for one more byte, the running checksum, and every held byte written. -/
structure DecoderInv (s : State) : Prop where
  wf : Memory.wf s.rxBuf
  lenLe : s.rxLen ≤ Config.maxPayload
  room : midFrame s = true → s.rxLen < Config.maxPayload
  ckEq : midFrame s = true → s.rxCk = plainXor s.rxPayload
  written : midFrame s = true → ∀ a < s.rxLen, (Memory.read s.rxBuf a).isSome = true

/-- The queue's invariant (R140, R128, R41): a capacity of at least one, at most that many entries,
each of at most 127 bytes, as is the last logged payload. -/
structure QueueInv (s : State) : Prop where
  capPos : 1 ≤ s.cfg.queueCap
  bound : s.q.length ≤ s.cfg.queueCap
  entries : ∀ p ∈ s.q, p.length ≤ Config.maxPayload - 1
  logged : s.rxlogLast.length ≤ Config.maxPayload - 1

/-- The sequencer's invariant (R22, R160): a selected command is in the table, and the index counts
its prefixes. -/
def SequencerInv (s : State) : Prop :=
  s.seqSelValid = true → ∃ d, commandOf s.cfg s.seqCmd = some d ∧ s.seqIdx ≤ d.prefixes.length

/-- There are `N_SWITCH` latches (R40). -/
def LatchInv (s : State) : Prop := s.swLatch.length = s.cfg.nSwitch

/-- In `TRANSITION` the entry position is `OPEN` or `CLOSED` (R198). -/
def TransitionInv (s : State) : Prop :=
  s.ctlState = .transition → s.posAtEntry = .opened ∨ s.posAtEntry = .closed

/-- The relay is driven exactly while a pulse is in progress (R30, R221). -/
def RelayInv (s : State) : Prop := s.lockRelay = s.pulseActive

/-- The invariant of the whole block. -/
structure Inv (s : State) : Prop where
  decoder : DecoderInv s
  queue : QueueInv s
  sequencer : SequencerInv s
  latches : LatchInv s
  transition : TransitionInv s
  relay : RelayInv s

/-! ### Registers by their writers (R44) -/

/-- The decoder's registers and buffer are the same. -/
def sameDecoder (s t : State) : Prop :=
  t.rxState = s.rxState ∧ t.rxLen = s.rxLen ∧ t.rxCk = s.rxCk ∧ t.rxBuf = s.rxBuf

/-- The log registers of the queue are the same. -/
def sameRxlog (s t : State) : Prop :=
  t.rxlogValid = s.rxlogValid ∧ t.rxlogLast = s.rxlogLast

/-- The registers that only a selection writes are the same. -/
def sameSelection (s t : State) : Prop := t.seqSelValid = s.seqSelValid ∧ t.seqCmd = s.seqCmd

/-- The registers that a selection clears and a transmission writes are the same. -/
def sameProgress (s t : State) : Prop :=
  t.seqIdx = s.seqIdx ∧ t.seqLastValid = s.seqLastValid

/-- The registers that only a transmission writes are the same. -/
def sameSent (s t : State) : Prop :=
  t.seqLast = s.seqLast ∧ t.txlogValid = s.txlogValid ∧ t.txlogLast = s.txlogLast

/-- The door control registers but the latches are the same. -/
def sameDoor (s t : State) : Prop :=
  t.posLast = s.posLast ∧ t.ctlState = s.ctlState ∧ t.doorOpenSince = s.doorOpenSince
    ∧ t.doorStateLastChanged = s.doorStateLastChanged ∧ t.posAtEntry = s.posAtEntry
    ∧ t.triggerRelease = s.triggerRelease

/-- The lock's registers are the same. -/
def sameLock (s t : State) : Prop :=
  t.lockActive = s.lockActive ∧ t.lockRelay = s.lockRelay ∧ t.pulseActive = s.pulseActive
    ∧ t.pulseStart = s.pulseStart ∧ t.reminderValid = s.reminderValid
    ∧ t.reminderLast = s.reminderLast

/-- The values `RESET` gives the registers whose reset value the spec states (R44, R280). -/
def resetValues (s : State) : Prop :=
  s.rxState = .idle ∧ s.rxLen = 0 ∧ s.rxCk = 0x00 ∧ s.q = [] ∧ s.rxlogValid = false
    ∧ s.txlogValid = false ∧ s.debugOut = false ∧ s.seqSelValid = false ∧ s.seqIdx = 0
    ∧ s.seqLastValid = false ∧ (∀ x, s.raw.get x = false) ∧ (∀ x, s.stable.get x = false)
    ∧ s.swLatch = List.replicate s.cfg.nSwitch false ∧ s.lockRequested = false
    ∧ s.posLast = .undefined ∧ s.ctlState = .undefined ∧ s.triggerRelease = false
    ∧ s.lockActive = false ∧ s.lockRelay = false ∧ s.pulseActive = false
    ∧ s.reminderValid = false

/-! ### Outputs and runs -/

/-- A log report of the queue or the sequencer: what `debug_out` may influence (R271). -/
def isLogReport : Output → Bool
  | .diag (.iRxlog _ _) | .diag (.iTxlog _) => true
  | _ => false

/-- A `NewMsg` record. -/
def isNewMsg : Output → Bool
  | .newMsg _ => true
  | _ => false

/-- A transmitted frame. -/
def isFrame : Output → Bool
  | .tx _ => true
  | _ => false

/-- A report on one sensor. -/
def isSensorReport (x : Sensor) : Output → Bool
  | .diag (.iSensor y _) => y = x
  | _ => false

/-- The instructions executed one after another (R17). -/
def runInstrs : List Instr → State → Host.Outcome State Fault Refusal
  | [], s => .next s
  | i :: r, s => andThen (exec i s) (runInstrs r)

/-- The state after a successful `SELECT` of a code, its result aside (R156). -/
def withSelected (code : Byte) (s : State) : State :=
  { s with seqCmd := code, seqSelValid := true, seqIdx := 0, seqLastValid := false }

/-- The state after the control state moved: the state, the stamp, the report (R186). -/
def movedTo (now : Time) (new : CtlState) (s : State) : State :=
  { s with
    ctlState := new, doorStateLastChanged := now,
    out := s.out ++ [.diag (.iState s.ctlState new)] }

end Sys2Proof.Safety
end

