-- ==== Sys2Proof/Certificates/Slice0/Obligations.lean ====
section
/-! DEFINITION. The statements about the block, for the provers. -/

open Sys2Proof Sys2Proof.Machine Sys2Proof.Safety

/-! ### Encodings and the step -/

/-- Words written out from R91, R92, R95 and R80 decode to what they stand for. The operand bytes of
the host operations are the model's own carrier (log entry 1). -/
def Obligations.WrittenWordsDecode : Prop :=
  decode .hostop [0x00] = .ok (.reset, []) ∧
  decode .hostop [0x01, 0x41] = .ok (.rxbyte 0x41, []) ∧
  decode .hostop [0x03, 0x01] = .ok (.select 0x01, []) ∧
  decode .hostop [0x06, 0x00, 0x00, 0x03, 0xE8, 0x04] = .ok (.cycle 1000 4, []) ∧
  decode .hostop [0x05, 0x02, 0x01] = .ok (.rawwr 2 true, []) ∧
  decode .hostop [0x0C] = .ok (.unassignedC, []) ∧
  decode (.wirebyte .afterDle 0x00) [0x03] = .ok (.rxAfterDleEtx, []) ∧
  decode (.wirebyte .awaitChecksum 0x41) [0x40] = .ok (.rxAwaitChecksumBad 0x40, []) ∧
  decode .wireframe [0x10, 0x02, 0x10, 0x10, 0x10, 0x03, 0x00] = .ok (.frame [0x10], []) ∧
  decode .token [0x12] = .ok (.tokenInit 2, [])

/-- Decoding the encoding of a well-formed instruction, in any space its row belongs to and whatever
follows it, gives the instruction back. The byte records of the host operations are the model's (log
entry 1, DESIGN CHOICE), and so are the bytes of the phases and of `ENQUEUE` (log entry 10, DESIGN
CHOICE); the wire bytes (R91), the frame (R80) and the tokens (R95) are the spec's. -/
def Obligations.DecodeOfEncode : Prop :=
  ∀ (i : Instr) (sp : Space) (rest : List Byte), WellFormed i = true → inSpace i sp = true →
    decode sp (encode i ++ rest) = .ok (i, rest)

/-- What decodes as a host operation is the encoding of a well-formed host operation, no bit
dropped. -/
def Obligations.HostDecodingExact : Prop :=
  ∀ (l : List Byte) (i : Instr) (rest : List Byte), decode .hostop l = .ok (i, rest) →
    l = encode i ++ rest ∧ WellFormed i = true ∧ inSpace i .hostop = true

/-- A step executes the operation of the oldest pending move, whoever issued it (R17, R267): the
control loop's, which its record decodes to, or the `RAWWR` of an edge handler's sensor. The other
moves are left pending. That moves wait in a list is the model's (log entry 2). -/
def Obligations.StepRunsDecoded : Prop :=
  (∀ (s : State) (record : List Byte) (r : List Move) (i : Instr),
    s.pending = .loop record :: r → decode .hostop record = .ok (i, []) →
    step s = exec i { s with pending := r }) ∧
  (∀ (s : State) (x : Sensor) (v : Bool) (r : List Move), s.pending = .edge x v :: r →
    step s = exec (.rawwr (sensorIndex x) v) { s with pending := r })

/-- With nothing pending the block holds its state (R272); a record of the control loop that is none
of an operation, or that has bytes after it, stops the model (log entry 1: the model's choice). -/
def Obligations.StepWithoutOperation : Prop :=
  (∀ s : State, s.pending = [] → step s = .next s) ∧
  (∀ (s : State) (record : List Byte) (r : List Move), s.pending = .loop record :: r →
    (∀ e : DecodeError, decode .hostop record = .error e → step s = .refused (.badRecord e)) ∧
    (∀ (i : Instr) (b : Byte) (l : List Byte), decode .hostop record = .ok (i, b :: l) →
      step s = .refused (.badRecord .trailing)))

/-- A table word placed for the fetch is the operation the next step runs. -/
def Obligations.PlacedWordRuns : Prop :=
  ∀ (s : State) (nbits w : Nat) (i : Instr), decodeTableWord nbits w = some i →
    step (s.withFetchWord nbits w) = exec i s

/-! ### Frame encoder -/

/-- R110: `ENCODE p` returns the frame and touches nothing else; its code is 0xB. -/
def Obligations.EncodeReturnsFrame : Prop :=
  (∀ (p : Payload) (s : State),
    exec (.encode p) s = .next { s with
      result := .encoded ([0x10, 0x02] ++ stuff p ++ [0x10, 0x03] ++ [xorBytes (stuff p)]) }) ∧
  stuff [] = [] ∧
  (∀ (b : Byte) (r : Payload),
    stuff (b :: r) = (if b = 0x10 then [0x10, 0x10] else [b]) ++ stuff r) ∧
  (∀ l : List Byte, xorBytes l = l.foldl (fun x y => x ^^^ y) 0x00) ∧
  (∀ s : State, exec (.encode [1, 2, 3, 4, 5, 6, 7, 8]) s = .next { s with
    result := .encoded [0x10, 0x02, 1, 2, 3, 4, 5, 6, 7, 8, 0x10, 0x03, 0x08] }) ∧
  ∀ p : Payload, (encode (.encode p)).head? = some 0x0B

/-- R111: the streaming form gives the same frame. -/
def Obligations.StreamingEncoderAgrees : Prop :=
  ∀ p : Payload, encodeStreaming p = frameOf p

/-- The shape of a frame (R82; the properties R85 and R113 that the spec derives): its length, the
number of `DLE` bytes of its stuffed region, that the region is read back as the payload whatever
follows, and that two payloads with the same frame are equal. -/
def Obligations.FrameShape : Prop :=
  (∀ p : Payload,
    (frameOf p).length = p.length + p.count 0x10 + 5 ∧
    (stuff p).count 0x10 = 2 * p.count 0x10 ∧
    ∀ r : List Byte, unstuff (stuff p ++ [0x10, 0x03] ++ r) = .ok (p, r)) ∧
  ∀ p q : Payload, frameOf p = frameOf q → p = q

/-- R83: the checksum is the XOR of the stuffed region from 0x00, which is the XOR of the payload
bytes that are not 0x10; the empty payload's is 0x00. -/
def Obligations.ChecksumSkipsDle : Prop :=
  (∀ p : Payload, checksum p = (stuff p).foldl (fun x y => x ^^^ y) 0x00 ∧
    checksum p = xorBytes (p.filter (fun b => b ≠ 0x10))) ∧
  checksum [] = 0x00

/-! ### Frame decoder -/

/-- The round trip (R114, which the spec derives): a frame of at most 127 payload bytes received in
`Idle` is enqueued, once, with no error, and the decoder is back in `Idle`; nothing but the
decoder's registers and what `ENQUEUE` writes changes. -/
def Obligations.FrameRoundTrip : Prop :=
  ∀ (s : State) (p : Payload), s.rxState = .idle → p.length ≤ 127 →
    ∃ t u : State, exec (.frame p) s = .next t ∧ exec (.enqueue p) s = .next u ∧
      t = { u with rxState := .idle, rxLen := p.length, rxCk := checksum p, rxBuf := t.rxBuf }

/-- A frame of 128 payload bytes or more received in `Idle` is answered, before any other output, by
`E_OVERSIZE` (R114, which the spec derives; what the rest of the frame does is log entry 13). -/
def Obligations.LongFrameRaisesOversize : Prop :=
  ∀ (s : State) (p : Payload), s.rxState = .idle → 128 ≤ p.length →
    ∃ t : State, exec (.frame p) s = .next t ∧ (s.out ++ [.diag .eOversize]) <+: t.out

/-- The checksum property as R132 derives it: one byte of a frame's stuffed region changed into
another, neither of them 0x10, and the frame is rejected with `E_CKSUM`; nothing reaches the queue.
-/
def Obligations.ChangedByteRejected : Prop :=
  ∀ (s : State) (p : Payload) (pre post : List Byte) (b c : Byte),
    s.rxState = .idle → p.length ≤ 127 → stuff p = pre ++ b :: post →
    b ≠ 0x10 → c ≠ 0x10 → c ≠ b →
    ∃ t : State,
      runInstrs (([0x10, 0x02] ++ pre ++ c :: post ++ [0x10, 0x03, checksum p]).map .rxbyte) s
        = .next t ∧
      t = { s with
        rxLen := t.rxLen, rxCk := t.rxCk, rxBuf := t.rxBuf,
        out := s.out ++ [.diag (.eCksum (checksum p) (checksum p ^^^ b ^^^ c))] }

/-- R122: state `Idle`. -/
def Obligations.RxIdleRule : Prop :=
  ∀ s : State, s.rxState = .idle →
    exec (.rxbyte 0x10) s = .next { s with rxState := .awaitStx } ∧
    exec .rxIdleDle s = .next { s with rxState := .awaitStx } ∧
    ∀ b : Byte, b ≠ 0x10 → exec (.rxbyte b) s = .next s ∧ exec (.rxIdleOther b) s = .next s

/-- R123: state `AwaitStx`. -/
def Obligations.RxAwaitStxRule : Prop :=
  ∀ s : State, s.rxState = .awaitStx →
    exec (.rxbyte 0x02) s = .next { s with rxState := .inFrame, rxLen := 0, rxCk := 0x00 } ∧
    exec .rxAwaitStxStx s = .next { s with rxState := .inFrame, rxLen := 0, rxCk := 0x00 } ∧
    exec (.rxbyte 0x10) s = .next s ∧
    exec .rxAwaitStxDle s = .next s ∧
    ∀ b : Byte, b ≠ 0x02 → b ≠ 0x10 →
      exec (.rxbyte b) s = .next { s with rxState := .idle } ∧
      exec (.rxAwaitStxOther b) s = .next { s with rxState := .idle }

/-- R124 with R126: state `InFrame`. A data byte is XORed in and stored at `rx_len`; every other
byte of the buffer reads as before; the 128th byte discards the frame. -/
def Obligations.RxInFrameRule : Prop :=
  ∀ s : State, s.rxState = .inFrame →
    exec (.rxbyte 0x10) s = .next { s with rxState := .afterDle } ∧
    exec .rxInFrameDle s = .next { s with rxState := .afterDle } ∧
    ∀ b : Byte, b ≠ 0x10 → s.rxLen ≤ 127 →
      ∃ t : State, exec (.rxbyte b) s = .next t ∧ exec (.rxInFrameData b) s = .next t ∧
        t.rxCk = s.rxCk ^^^ b ∧ t.rxLen = s.rxLen + 1 ∧ t.rxByte s.rxLen = b ∧
        (∀ a : Nat, a ≠ s.rxLen → t.rxByte a = s.rxByte a) ∧
        (if s.rxLen + 1 = 128 then t.rxState = .idle ∧ t.out = s.out ++ [.diag .eOversize]
         else t.rxState = .inFrame ∧ t.out = s.out) ∧
        t = { s with
          rxCk := t.rxCk, rxLen := t.rxLen, rxBuf := t.rxBuf, rxState := t.rxState, out := t.out }

/-- R125 with R126: state `AfterDle`. -/
def Obligations.RxAfterDleRule : Prop :=
  ∀ s : State, s.rxState = .afterDle →
    (s.rxLen ≤ 127 →
      ∃ t : State, exec (.rxbyte 0x10) s = .next t ∧ exec .rxAfterDleDle s = .next t ∧
        t.rxCk = (s.rxCk ^^^ 0x10) ^^^ 0x10 ∧ t.rxLen = s.rxLen + 1 ∧ t.rxByte s.rxLen = 0x10 ∧
        (∀ a : Nat, a ≠ s.rxLen → t.rxByte a = s.rxByte a) ∧
        (if s.rxLen + 1 = 128 then t.rxState = .idle ∧ t.out = s.out ++ [.diag .eOversize]
         else t.rxState = .inFrame ∧ t.out = s.out) ∧
        t = { s with
          rxLen := t.rxLen, rxBuf := t.rxBuf, rxState := t.rxState, out := t.out }) ∧
    exec (.rxbyte 0x03) s = .next { s with rxState := .awaitChecksum } ∧
    exec .rxAfterDleEtx s = .next { s with rxState := .awaitChecksum } ∧
    ∀ b : Byte, b ≠ 0x10 → b ≠ 0x03 →
      exec (.rxbyte b) s
        = .next { s with rxState := .idle, out := s.out ++ [.diag (.eEsc b)] } ∧
      exec (.rxAfterDleOther b) s
        = .next { s with rxState := .idle, out := s.out ++ [.diag (.eEsc b)] }

/-- R127, R128: state `AwaitChecksum`. A good byte enqueues a copy of the `rx_len` bytes `rx_buf[0]
.. rx_buf[rx_len-1]`; a bad one raises `E_CKSUM`. -/
def Obligations.RxAwaitChecksumRule : Prop :=
  ∀ s : State, s.rxState = .awaitChecksum →
    (∃ u : State, exec (.enqueue ((List.range s.rxLen).map s.rxByte)) s = .next u ∧
      exec (.rxbyte s.rxCk) s = .next { u with rxState := .idle } ∧
      exec (.rxAwaitChecksumGood s.rxCk) s = .next { u with rxState := .idle }) ∧
    ∀ b : Byte, b ≠ s.rxCk →
      exec (.rxbyte b) s
        = .next { s with rxState := .idle, out := s.out ++ [.diag (.eCksum b s.rxCk)] } ∧
      exec (.rxAwaitChecksumBad b) s
        = .next { s with rxState := .idle, out := s.out ++ [.diag (.eCksum b s.rxCk)] }

/-- R91, R120: a received byte has the effect of the one row of the byte map it takes. -/
def Obligations.RxByteTakesItsRow : Prop :=
  ∀ (b : Byte) (s : State), exec (.rxbyte b) s = exec (classify s.rxState s.rxCk b) s

/-- A row of the byte map has no effect where another row is the one that applies (log entry 10: the
model's choice). -/
def Obligations.RowsElsewhereDoNothing : Prop :=
  ∀ (i : Instr) (b : Byte) (s : State) (st : RxState) (ck : Byte),
    inSpace i (.wirebyte st ck) = true → encode i = [b] → classify s.rxState s.rxCk b ≠ i →
    exec i s = .next s

/-- Totality (R129, and R130, which the spec derives): from a state with the decoder's invariant
every byte, and every frame, is answered by a next state with the invariant. -/
def Obligations.DecoderTotal : Prop :=
  ∀ s : State, DecoderInv s →
    (∀ b : Byte, ∃ t : State, exec (.rxbyte b) s = .next t ∧ DecoderInv t) ∧
    (∀ p : Payload, ∃ t : State, exec (.frame p) s = .next t ∧ DecoderInv t)

/-- The one fault of the model: an append at an index of `rx_buf` that does not exist (R63; log
entry 7: the model's choice). -/
def Obligations.RxFaultsOnlyPastBuffer : Prop :=
  ∀ (b : Byte) (s : State) (r : Fault), exec (.rxbyte b) s = .fault r ↔
    r = .rxBufIndex s.rxLen ∧ 128 ≤ s.rxLen ∧
      ((s.rxState = .inFrame ∧ b ≠ 0x10) ∨ (s.rxState = .afterDle ∧ b = 0x10))

/-! ### Transport queue -/

/-- R142: `ENQUEUE p`. -/
def Obligations.EnqueueRule : Prop :=
  ∀ (p : Payload) (s : State), ∃ t : State, exec (.enqueue p) s = .next t ∧
    t.q = (if s.q.length = s.cfg.queueCap then s.q.drop 1 else s.q) ++ [p] ∧
    (if s.debugOut = true ∨ s.rxlogValid = false ∨ s.rxlogLast ≠ p then
       t.rxlogLast = p ∧ t.rxlogValid = true ∧
         t.out = s.out ++ [.diag (.iRxlog p t.q.length), .newMsg p]
     else
       t.rxlogLast = s.rxlogLast ∧ t.rxlogValid = s.rxlogValid ∧ t.out = s.out ++ [.newMsg p]) ∧
    t = { s with q := t.q, rxlogLast := t.rxlogLast, rxlogValid := t.rxlogValid, out := t.out }

/-- R146: `DEQUEUE`, code 0x2. -/
def Obligations.DequeueRule : Prop :=
  (∀ s : State, s.q = [] → exec .dequeue s = .next { s with result := .dequeued none }) ∧
  (∀ (s : State) (p : Payload) (r : List Payload), s.q = p :: r →
    exec .dequeue s = .next { s with q := r, result := .dequeued (some p) }) ∧
  (encode .dequeue).head? = some 0x02

/-- The queue bound (R148, which the spec derives): any number of payloads enqueued into an empty
queue leave the newest ones, in order, and each is announced. -/
def Obligations.QueueKeepsNewest : Prop :=
  ∀ (ps : List Payload) (s : State), s.q = [] → 1 ≤ s.cfg.queueCap →
    ∃ t : State, runInstrs (ps.map .enqueue) s = .next t ∧
      t.q = ps.drop (ps.length - s.cfg.queueCap) ∧
      t.out.filter isNewMsg = s.out.filter isNewMsg ++ ps.map .newMsg

/-- R145: what is enqueued and announced does not depend on the log registers or on `debug_out`. -/
def Obligations.SuppressionHidesNothing : Prop :=
  ∀ (p last : Payload) (s : State) (valid debug : Bool), ∃ t u : State,
    exec (.enqueue p) s = .next t ∧
    exec (.enqueue p) { s with rxlogValid := valid, rxlogLast := last, debugOut := debug }
      = .next u ∧
    u.q = t.q ∧ u.out.filter isNewMsg = t.out.filter isNewMsg

/-! ### Command sequencer -/

/-- R156, R157: `SELECT`, code 0x3. A key of the table resets the sequencer to it; any other token is
rejected without side effects. That a code R95 does not list is rejected whatever the table holds (the
third clause) is the model's reading: log entry 8, DEDUCED. -/
def Obligations.SelectRule : Prop :=
  (∀ (s : State) (code : Byte) (d : Config.CommandDef), commandOf s.cfg code = some d →
    exec (.select code) s = .next { s with
      seqCmd := code, seqSelValid := true, seqIdx := 0, seqLastValid := false,
      result := .selected true }) ∧
  (∀ (s : State) (code : Byte), commandOf s.cfg code = none →
    exec (.select code) s = .next { s with result := .selected false }) ∧
  (∀ (s : State) (code : Byte),
    code.toNat = 0 ∨ (5 < code.toNat ∧ code.toNat < 0x11) ∨ 0x10 + s.cfg.nInit < code.toNat →
    exec (.select code) s = .next { s with result := .selected false }) ∧
  ∀ code : Byte, encode (.select code) = [0x03, code]

/-- R95, R101: each token of the command surface selects its command, or is rejected where the table
has no such key or there is no such init sequence. -/
def Obligations.TokensSelect : Prop :=
  ∀ (s : State) (i : Instr) (code : Byte),
    (i = .tokenOpen ∧ code = 0x01) ∨ (i = .tokenOpening ∧ code = 0x02) ∨
      (i = .tokenClose ∧ code = 0x03) ∨ (i = .tokenClosing ∧ code = 0x04) ∨
      (i = .tokenClosed ∧ code = 0x05) ∨
      (∃ k : Byte, i = .tokenInit k ∧ code = 0x10 + k ∧ 1 ≤ k.toNat ∧ k.toNat ≤ 0xEF) →
    (∀ d : Config.CommandDef, commandOf s.cfg code = some d →
      exec i s = .next { s with
        seqCmd := code, seqSelValid := true, seqIdx := 0, seqLastValid := false,
        result := .selected true }) ∧
    (commandOf s.cfg code = none → exec i s = .next { s with result := .selected false })

/-- R158: `SEQTICK now`, code 0x4 and phase 4 of `CYCLE`. With no command selected, or with the
interval not yet elapsed, it does nothing; at an open gate it transmits one frame. -/
def Obligations.SeqtickRule : Prop :=
  (∀ (now : Time) (s : State),
    s.seqSelValid = false ∨ (s.seqLastValid = true ∧ now - s.seqLast < s.cfg.sendInterval) →
    exec (.seqtick now) s = .next s ∧ exec (.cycleSeqtick now) s = .next s) ∧
  (∀ (now : Time) (s : State) (d : Config.CommandDef), s.seqSelValid = true →
    s.seqLastValid = false ∨ s.cfg.sendInterval ≤ now - s.seqLast →
    commandOf s.cfg s.seqCmd = some d →
    ∃ (t : State) (p : Payload), exec (.seqtick now) s = .next t ∧
      exec (.cycleSeqtick now) s = .next t ∧
      (∀ h : s.seqIdx < d.prefixes.length,
        p = d.prefixes[s.seqIdx] ∧ t.seqIdx = s.seqIdx + 1) ∧
      (d.prefixes.length ≤ s.seqIdx → p = d.final ∧ t.seqIdx = s.seqIdx) ∧
      t.seqLast = now ∧ t.seqLastValid = true ∧
      (if s.debugOut = true ∨ s.txlogValid = false ∨ s.txlogLast ≠ p then
         t.txlogLast = p ∧ t.txlogValid = true ∧
           t.out = s.out ++ [.tx (frameOf p), .diag (.iTxlog p)]
       else
         t.txlogLast = s.txlogLast ∧ t.txlogValid = s.txlogValid ∧
           t.out = s.out ++ [.tx (frameOf p)]) ∧
      t = { s with
        seqIdx := t.seqIdx, seqLast := t.seqLast, seqLastValid := t.seqLastValid,
        txlogLast := t.txlogLast, txlogValid := t.txlogValid, out := t.out }) ∧
  ∀ now : Time, (encode (.seqtick now)).head? = some 0x04 ∧ (encode (.cycleSeqtick now)).head? = some 4

/-- The ordering property (R162, which the spec derives): after a successful `SELECT`, ticks at
least the interval apart send the prefixes once each in list order and then the final payload every
time. -/
def Obligations.PrefixesOnceThenFinal : Prop :=
  ∀ (s : State) (code : Byte) (d : Config.CommandDef) (nows : List Time),
    commandOf s.cfg code = some d →
    (∀ (k : Nat) (h : k + 1 < nows.length),
      s.cfg.sendInterval ≤ nows[k + 1] - nows[k]) →
    ∃ t : State, runInstrs (.select code :: nows.map .seqtick) s = .next t ∧
      t.out.filter isFrame = s.out.filter isFrame ++
        (List.range nows.length).map (fun k => .tx (frameOf ((d.prefixes[k]?).getD d.final))) ∧
      t.seqIdx = min nows.length d.prefixes.length

/-! ### Sensor debounce -/

/-- R171: `RAWWR`, code 0x5, is issued by the edge handler of its sensor and by nothing else, and
writes the raw flag of that sensor and nothing else; so does a step of the handler's move. -/
def Obligations.RawwrRule : Prop :=
  (∀ (x : Sensor) (v : Bool) (s : State), ∃ t : State,
    exec (.rawwr (sensorIndex x) v) s = .next t ∧ t.raw.get x = v ∧
    (∀ y : Sensor, y ≠ x → t.raw.get y = s.raw.get y) ∧ t = { s with raw := t.raw }) ∧
  (∀ (x : Sensor) (v : Bool) (s : State) (r : List Move), s.pending = .edge x v :: r →
    step s = .next { s with pending := r, raw := s.raw.set x v }) ∧
  (∀ (a : Agent) (x : Sensor) (v : Bool),
    mayIssue a (.rawwr (sensorIndex x) v) = true ↔ a = .edgeHandler x) ∧
  ∀ (x : Byte) (v : Bool), (encode (.rawwr x v)).head? = some 0x05

/-- R173: `RECONCILE` copies raw into stable and reports each sensor that changed, in index order.
-/
def Obligations.ReconcileRule : Prop :=
  ∀ s : State, ∃ t : State, exec .cycleReconcile s = .next t ∧ t.stable = s.raw ∧
    t.out = s.out ++ (([.airA, .airB, .radarA, .radarB] : List Sensor).filter
      (fun x => s.raw.get x != s.stable.get x)).map (fun x => .diag (.iSensor x (s.raw.get x))) ∧
    t = { s with stable := t.stable, out := t.out }

/-- Debounce stability (R176, which the spec derives): any number of raw writes between two cycle
boundaries give at most one report per sensor, and stable becomes the value written last. -/
def Obligations.RawWritesCollapse : Prop :=
  ∀ (ws : List (Sensor × Bool)) (s : State), ∃ (t : State) (added : List Output),
    runInstrs (ws.map (fun w => .rawwr (sensorIndex w.1) w.2) ++ [.cycleReconcile]) s = .next t ∧
    t.out = s.out ++ added ∧
    ∀ x : Sensor,
      t.stable.get x = (((ws.filter (fun w => w.1 = x)).getLast?).map (·.2)).getD (s.raw.get x) ∧
      (added.filter (isSensorReport x)).length = if t.stable.get x = s.stable.get x then 0 else 1

/-! ### Door control -/

/-- R202: in an inert mode the door step only clears `trigger_release`. -/
def Obligations.DoorInert : Prop :=
  ∀ (now : Time) (pos : Position) (s : State), s.mode ≠ 2 → s.mode ≠ 3 →
    exec (.cycleDoorstep now pos) s = .next { s with triggerRelease := false }

/-- R187: arm `UNDEFINED`. -/
def Obligations.DoorUndefinedArm : Prop :=
  ∀ (now : Time) (pos : Position) (s : State), s.mode = 2 ∨ s.mode = 3 → s.ctlState = .undefined →
    exec (.cycleDoorstep now pos) s = .next (
      if pos = .opened then movedTo now .openStart { s with triggerRelease := false }
      else if pos = .closed then movedTo now .closed { s with triggerRelease := false }
      else { s with triggerRelease := false })

/-- R188: arm `OPEN_START`, whatever the position. -/
def Obligations.DoorOpenStartArm : Prop :=
  ∀ (now : Time) (pos : Position) (s : State), s.mode = 2 ∨ s.mode = 3 → s.ctlState = .openStart →
    exec (.cycleDoorstep now pos) s =
      .next (movedTo now .opened { s with triggerRelease := false, doorOpenSince := now })

/-- R189, R193: a position that contradicts `OPEN` or `CLOSED` is reported and forces `UNDEFINED`,
and nothing else happens. -/
def Obligations.DoorContradiction : Prop :=
  ∀ (now : Time) (pos : Position) (s : State), s.mode = 2 ∨ s.mode = 3 →
    (s.ctlState = .opened ∧ pos ≠ .opened) ∨ (s.ctlState = .closed ∧ pos ≠ .closed) →
    exec (.cycleDoorstep now pos) s = .next { s with
      triggerRelease := false, ctlState := .undefined, doorStateLastChanged := now,
      out := s.out ++ [.diag (.eInconsistent s.ctlState pos),
        .diag (.iState s.ctlState .undefined)] }

/-- R190, R191, R192, R198: the release trigger of each mode, and its action. -/
def Obligations.DoorReleaseTrigger : Prop :=
  ∀ (now : Time) (s : State), s.ctlState = .opened → ∀ trig : Prop,
    (s.mode = 3 ∧ (trig ↔ (∀ x : Sensor, s.stable.get x = false) ∧
        s.cfg.minHold ≤ now - s.doorOpenSince)) ∨
      (s.mode = 2 ∧ (trig ↔ s.stable.get .airA = false ∧ s.stable.get .airB = false ∧
        true ∈ s.swLatch)) →
    (trig → ∃ u : State, exec (.select 0x03) s = .next u ∧
      exec (.cycleDoorstep now .opened) s = .next (movedTo now .transition { u with
        result := s.result, triggerRelease := true,
        swLatch := List.replicate s.swLatch.length false, posAtEntry := .opened })) ∧
    (¬ trig → exec (.cycleDoorstep now .opened) s = .next { s with triggerRelease := false })

/-- R194: in `CLOSED` an active lock is looked at before any trigger. -/
def Obligations.DoorLockCheck : Prop :=
  ∀ (now : Time) (s : State), s.mode = 2 ∨ s.mode = 3 → s.ctlState = .closed →
    s.lockActive = true →
    exec (.cycleDoorstep now .closed) s =
      .next (movedTo now .closedLocked { s with triggerRelease := false })

/-- R195, R196, R198: the open trigger of each mode, and its action. -/
def Obligations.DoorOpenTrigger : Prop :=
  ∀ (now : Time) (s : State), s.ctlState = .closed → s.lockActive = false → ∀ trig : Prop,
    (s.mode = 3 ∧ (trig ↔ s.stable.get .radarA = true ∨ s.stable.get .radarB = true)) ∨
      (s.mode = 2 ∧ (trig ↔ true ∈ s.swLatch)) →
    (trig → ∃ u : State, exec (.select 0x01) s = .next u ∧
      exec (.cycleDoorstep now .closed) s = .next (movedTo now .transition { u with
        result := s.result, triggerRelease := true,
        swLatch := List.replicate s.swLatch.length false, posAtEntry := .closed })) ∧
    (¬ trig → exec (.cycleDoorstep now .closed) s = .next { s with triggerRelease := false })

/-- R197: arm `CLOSED_LOCKED`. -/
def Obligations.DoorClosedLockedArm : Prop :=
  ∀ (now : Time) (pos : Position) (s : State), s.mode = 2 ∨ s.mode = 3 →
    s.ctlState = .closedLocked →
    exec (.cycleDoorstep now pos) s = .next (
      if pos ≠ .closed then
        { s with
          triggerRelease := false, ctlState := .undefined, doorStateLastChanged := now,
          out := s.out ++ [.diag (.eInconsistent .closedLocked pos),
            .diag (.iState .closedLocked .undefined)] }
      else if s.lockActive = false then movedTo now .closed { s with triggerRelease := false }
      else { s with triggerRelease := false })

/-- R200: arm `TRANSITION`. -/
def Obligations.DoorTransitionArm : Prop :=
  ∀ (now : Time) (pos : Position) (s : State), s.mode = 2 ∨ s.mode = 3 → s.ctlState = .transition →
    exec (.cycleDoorstep now pos) s = .next (
      if pos ≠ s.posAtEntry ∨ s.cfg.transitionTimeout ≤ now - s.doorStateLastChanged then
        movedTo now
          (if pos = .opened then .openStart else if pos = .closed then .closed else .undefined)
          { s with triggerRelease := false }
      else { s with triggerRelease := false })

/-- R199: after a `CYCLE` `trigger_release` is 1 exactly when that cycle's door step evaluated a
trigger and found it true; the door step sees the raw flags the cycle began with. -/
def Obligations.TriggerReleaseMeaning : Prop :=
  ∀ (now : Time) (p : Position) (s : State), ∃ t : State,
    exec (.cycle now (positionCode p)) s = .next t ∧
    (t.triggerRelease = true ↔ (s.mode = 2 ∨ s.mode = 3) ∧
      ((s.ctlState = .opened ∧ p = .opened ∧ releaseTrigger now { s with stable := s.raw } = true) ∨
       (s.ctlState = .closed ∧ p = .closed ∧ s.lockActive = false ∧
         openTrigger { s with stable := s.raw } = true)))

/-- An invariant of R221, which the spec derives: with the lock engaged the door step selects
nothing, or `CLOSE` out of `OPEN`; never `OPEN`. -/
def Obligations.LockedDoorNeverOpened : Prop :=
  ∀ (now : Time) (pos : Position) (s t : State), s.lockActive = true →
    exec (.cycleDoorstep now pos) s = .next t →
    (t.seqCmd = s.seqCmd ∧ t.seqSelValid = s.seqSelValid ∧ t.seqIdx = s.seqIdx ∧
      t.seqLastValid = s.seqLastValid) ∨
    (s.ctlState = .opened ∧ t.seqCmd = 0x03 ∧ t.ctlState = .transition)

/-! ### The control cycle and the lock -/

/-- R230: `CYCLE`, code 0x6, is `pos_last` written and then its four phases, in order; a position
code above 4 makes the whole operation a no-op. -/
def Obligations.CycleIsItsPhases : Prop :=
  (∀ (now : Time) (p : Position) (s : State), ∃ s1 s2 s3 s4 : State,
    exec .cycleReconcile { s with posLast := p } = .next s1 ∧
    exec (.cycleDoorstep now p) s1 = .next s2 ∧
    exec (.cycleLockstep now) s2 = .next s3 ∧
    exec (.cycleSeqtick now) s3 = .next s4 ∧
    exec (.cycle now (positionCode p)) s = .next s4) ∧
  (∀ (now : Time) (pos : BitVec 3) (s : State), 4 < pos.toNat → exec (.cycle now pos) s = .next s) ∧
  ∀ (now : Time) (pos : BitVec 3), (encode (.cycle now pos)).head? = some 0x06

/-- R36: the status outputs are functions of the state, and `pos_status` is the position of the
latest `CYCLE`. -/
def Obligations.StatusOutputs : Prop :=
  ∀ s : State, s.ctlStatus = s.ctlState ∧ s.lockStatus = s.lockActive ∧ s.qDepth = s.q.length ∧
    s.posStatus = s.posLast ∧
    ∀ (now : Time) (p : Position), ∃ t : State,
      exec (.cycle now (positionCode p)) s = .next t ∧ t.posStatus = p

/-- R93: an operand outside its stated range makes the operation a no-op. -/
def Obligations.OutOfRangeOperands : Prop :=
  (∀ (now : Time) (pos : BitVec 3) (s : State), 4 < pos.toNat → exec (.cycle now pos) s = .next s) ∧
  (∀ (x : Byte) (v : Bool) (s : State), 3 < x.toNat → exec (.rawwr x v) s = .next s) ∧
  (∀ (k : Byte) (s : State), s.cfg.nSwitch ≤ k.toNat → exec (.setlatch k) s = .next s)

/-- R15, R268: the guard of every timer compares the elapsed time modulo 2^32, unsigned, with the
duration. -/
def Obligations.TimerGuard : Prop :=
  ∀ now stamp duration : Time, hasElapsed now stamp duration = true ↔
    duration.toNat ≤ (now.toNat + 2 ^ 32 - stamp.toNat) % 2 ^ 32

/-- R216: a pulse in progress is ended once its duration has elapsed, and nothing else is done. -/
def Obligations.LockPulseRule : Prop :=
  ∀ (now : Time) (s : State), s.pulseActive = true →
    exec (.cycleLockstep now) s = .next (
      if s.cfg.lockPulseDuration ≤ now - s.pulseStart then
        { s with
          lockRelay := false, pulseActive := false,
          out := s.out ++ [.diag (.iLock false s.lockActive)] }
      else s)

/-- R217, R218: a pending request is honoured with the door closed and no pulse in progress. That
`I_LOCK` carries the new `lock_active` is the model's reading: log entry 15, DEDUCED. -/
def Obligations.LockHonourRule : Prop :=
  ∀ (now : Time) (s : State), s.pulseActive = false → s.lockRequested ≠ s.lockActive →
    s.ctlState = .closed ∨ s.ctlState = .closedLocked →
    exec (.cycleLockstep now) s = .next { s with
      lockRelay := true, pulseStart := now, pulseActive := true, lockActive := s.lockRequested,
      reminderValid := false, out := s.out ++ [.diag (.iLock true s.lockRequested)] }

/-- R219, R220: a request that has to wait is reminded when due; with none pending the schedule is
forgotten. -/
def Obligations.LockReminderRule : Prop :=
  ∀ (now : Time) (s : State), s.pulseActive = false →
    (s.lockRequested ≠ s.lockActive → s.ctlState ≠ .closed → s.ctlState ≠ .closedLocked →
      exec (.cycleLockstep now) s = .next (
        if s.reminderValid = false ∨ s.cfg.reminderInterval ≤ now - s.reminderLast then
          { s with
            reminderLast := now, reminderValid := true,
            out := s.out ++ [.lockReminder s.lockRequested] }
        else s)) ∧
    (s.lockRequested = s.lockActive →
      exec (.cycleLockstep now) s = .next { s with reminderValid := false })

/-- An invariant of R221, which the spec derives: a pulse starts only in a cycle that ends with the
door closed, and the belief then equals the request. -/
def Obligations.PulseStartsOnlyClosed : Prop :=
  ∀ (now : Time) (pos : BitVec 3) (s t : State), exec (.cycle now pos) s = .next t →
    s.pulseActive = false → t.pulseActive = true →
    (t.ctlState = .closed ∨ t.ctlState = .closedLocked) ∧ t.lockActive = s.lockRequested ∧
      t.lockActive ≠ s.lockActive ∧ t.pulseStart = now ∧ t.lockRelay = true

/-! ### Host writes and reset -/

/-- R235 to R238: each host write, codes 0x7 to 0xA, changes its own register and nothing else. -/
def Obligations.HostWriteRules : Prop :=
  (∀ (m : Byte) (s : State), exec (.setmode m) s = .next { s with mode := m }) ∧
  (∀ (v : Bool) (s : State), exec (.setlockreq v) s = .next { s with lockRequested := v }) ∧
  (∀ (v : Bool) (s : State), exec (.setdebug v) s = .next { s with debugOut := v }) ∧
  (∀ (k : Byte) (s : State), k.toNat < s.cfg.nSwitch → s.swLatch.length = s.cfg.nSwitch →
    ∃ t : State, exec (.setlatch k) s = .next t ∧ t.swLatch[k.toNat]? = some true ∧
      (∀ j : Nat, j ≠ k.toNat → t.swLatch[j]? = s.swLatch[j]?) ∧
      t = { s with swLatch := t.swLatch }) ∧
  ∀ (m k : Byte) (v : Bool), encode (.setmode m) = [0x07, m] ∧
    (encode (.setlockreq v)).head? = some 0x08 ∧ encode (.setlatch k) = [0x09, k] ∧
    (encode (.setdebug v)).head? = some 0x0A

/-- R92: a code that is not in the table is ignored and changes no state. -/
def Obligations.UnassignedCodesIgnored : Prop :=
  ∀ s : State, exec .unassignedC s = .next s ∧ exec .unassignedD s = .next s ∧
    exec .unassignedE s = .next s ∧ exec .unassignedF s = .next s

/-- R280, R281: `RESET`, code 0x0, gives the stated values, keeps `mode`, emits nothing; the initial
state has the same values, and `mode` at `MODE_FACTORY_DEFAULT`. What it does to the registers the
spec leaves unspecified is left open. -/
def Obligations.ResetRule : Prop :=
  (∀ s : State, ∃ t : State, exec .reset s = .next t ∧ resetValues t ∧ t.mode = s.mode ∧
    t.out = s.out ∧ t.cfg = s.cfg) ∧
  resetValues State.reset ∧ State.reset.mode = State.reset.cfg.modeFactoryDefault ∧
  encode .reset = [0x00]

/-! ### The whole machine -/

/-- The invariant of the block holds at reset; it rests on the model's reset values and defaults
(log entries 4 and 5). -/
def Obligations.InvariantAtReset : Prop := Inv State.reset

/-- Every step keeps the invariant of the block, which gathers R22, R30, R40, R63, R130, R140 and
R198 (the canonical form of the buffer is the model's, log entry 7). -/
def Obligations.InvariantKeptByStep : Prop :=
  ∀ s t : State, Inv s → step s = .next t → Inv t

/-- The writer discipline. Agents (R267): an edge handler may issue the `RAWWR` of its own sensor and
nothing else, which is what its move is; the control loop may issue every other host operation.
Registers (R44): each is changed by the operations its row lists, by `RESET`, and by no other, where
`CYCLE` counts as the `SELECT` of its door step and the `SEQTICK` of its last phase; each phase of
`CYCLE` changes the registers whose rows name it and the output. The parameters are changed by none
(R37). Where the moves wait and where results stand are the model's choices (log entries 2 and 12). -/
def Obligations.WriterDiscipline : Prop :=
  (∀ (x : Sensor) (i : Instr),
    mayIssue (.edgeHandler x) i = true ↔ ∃ v : Bool, (Move.edge x v).operation = .ok i) ∧
  (∀ i : Instr, mayIssue .controlLoop i = true ↔
    inSpace i .hostop = true ∧ ∀ (k : Byte) (v : Bool), i ≠ .rawwr k v) ∧
  (∀ (i : Instr) (s t : State), inSpace i .hostop = true → exec i s = .next t →
    t.cfg = s.cfg ∧ t.pending = s.pending ∧
    (i ≠ .dequeue → (∀ c, i ≠ .select c) → (∀ p, i ≠ .encode p) → t.result = s.result) ∧
    ((∀ m, i ≠ .setmode m) → t.mode = s.mode) ∧
    (i ≠ .reset →
      ((∀ b, i ≠ .rxbyte b) → sameDecoder s t ∧ sameRxlog s t) ∧
      ((∀ b, i ≠ .rxbyte b) → i ≠ .dequeue → t.q = s.q) ∧
      ((∀ v, i ≠ .setdebug v) → t.debugOut = s.debugOut) ∧
      ((∀ c, i ≠ .select c) → (∀ n p, i ≠ .cycle n p) → sameSelection s t) ∧
      ((∀ c, i ≠ .select c) → (∀ n, i ≠ .seqtick n) → (∀ n p, i ≠ .cycle n p) →
        sameProgress s t) ∧
      ((∀ n, i ≠ .seqtick n) → (∀ n p, i ≠ .cycle n p) → sameSent s t) ∧
      (∀ x, (∀ v, i ≠ .rawwr (sensorIndex x) v) → t.raw.get x = s.raw.get x) ∧
      ((∀ n p, i ≠ .cycle n p) → t.stable = s.stable ∧ sameDoor s t ∧ sameLock s t) ∧
      ((∀ k, i ≠ .setlatch k) → (∀ n p, i ≠ .cycle n p) → t.swLatch = s.swLatch) ∧
      ((∀ v, i ≠ .setlockreq v) → t.lockRequested = s.lockRequested))) ∧
  (∀ s t : State, exec .cycleReconcile s = .next t →
    t = { s with stable := t.stable, out := t.out }) ∧
  (∀ (now : Time) (pos : Position) (s t : State), exec (.cycleDoorstep now pos) s = .next t →
    t = { s with
      ctlState := t.ctlState, doorOpenSince := t.doorOpenSince,
      doorStateLastChanged := t.doorStateLastChanged, posAtEntry := t.posAtEntry,
      triggerRelease := t.triggerRelease, swLatch := t.swLatch, seqSelValid := t.seqSelValid,
      seqCmd := t.seqCmd, seqIdx := t.seqIdx, seqLastValid := t.seqLastValid, out := t.out }) ∧
  (∀ (now : Time) (s t : State), exec (.cycleLockstep now) s = .next t →
    t = { s with
      lockActive := t.lockActive, lockRelay := t.lockRelay, pulseActive := t.pulseActive,
      pulseStart := t.pulseStart, reminderValid := t.reminderValid,
      reminderLast := t.reminderLast, out := t.out }) ∧
  (∀ (now : Time) (s t : State), exec (.cycleSeqtick now) s = .next t →
    t = { s with
      seqIdx := t.seqIdx, seqLastValid := t.seqLastValid, seqLast := t.seqLast,
      txlogValid := t.txlogValid, txlogLast := t.txlogLast, out := t.out })

/-- R45 and R255, which the spec derives: the output stream is only appended to, and nothing the
block does depends on it. -/
def Obligations.OutputsAreNeverRead : Prop :=
  ∀ s t : State, step s = .next t → ∃ added : List Output, t.out = s.out ++ added ∧
    ∀ o : List Output, step { s with out := o } = .next { t with out := o ++ added }

/-- R271: `debug_out` changes only the set of `I_RXLOG` and `I_TXLOG` records. -/
def Obligations.DebugFlagOnlyLogs : Prop :=
  ∀ (s t : State) (d : Bool), step s = .next t → ∃ u : State,
    step { s with debugOut := d } = .next u ∧
    t = { u with debugOut := t.debugOut, out := t.out } ∧
    u.out.filter (fun o => !isLogReport o) = t.out.filter (fun o => !isLogReport o)
end

