-- ==== Sys2Proof/Laws/State.lean ====
section
/-! SUPPORT. Field by field, what the named updates of the state leave: each lemma is true by
unfolding the update once, so that later proofs need not. -/

namespace Sys2Proof.Machine

/-! ### `emitOutput` writes `out` only -/

@[simp] theorem emitOutput_rxState (o : Output) (s : State) : (emitOutput o s).rxState = s.rxState := rfl
@[simp] theorem emitOutput_rxLen (o : Output) (s : State) : (emitOutput o s).rxLen = s.rxLen := rfl
@[simp] theorem emitOutput_rxCk (o : Output) (s : State) : (emitOutput o s).rxCk = s.rxCk := rfl
@[simp] theorem emitOutput_rxBuf (o : Output) (s : State) : (emitOutput o s).rxBuf = s.rxBuf := rfl
@[simp] theorem emitOutput_q (o : Output) (s : State) : (emitOutput o s).q = s.q := rfl
@[simp] theorem emitOutput_rxlogValid (o : Output) (s : State) : (emitOutput o s).rxlogValid = s.rxlogValid := rfl
@[simp] theorem emitOutput_rxlogLast (o : Output) (s : State) : (emitOutput o s).rxlogLast = s.rxlogLast := rfl
@[simp] theorem emitOutput_debugOut (o : Output) (s : State) : (emitOutput o s).debugOut = s.debugOut := rfl
@[simp] theorem emitOutput_seqSelValid (o : Output) (s : State) : (emitOutput o s).seqSelValid = s.seqSelValid := rfl
@[simp] theorem emitOutput_seqCmd (o : Output) (s : State) : (emitOutput o s).seqCmd = s.seqCmd := rfl
@[simp] theorem emitOutput_seqIdx (o : Output) (s : State) : (emitOutput o s).seqIdx = s.seqIdx := rfl
@[simp] theorem emitOutput_seqLastValid (o : Output) (s : State) : (emitOutput o s).seqLastValid = s.seqLastValid := rfl
@[simp] theorem emitOutput_seqLast (o : Output) (s : State) : (emitOutput o s).seqLast = s.seqLast := rfl
@[simp] theorem emitOutput_txlogValid (o : Output) (s : State) : (emitOutput o s).txlogValid = s.txlogValid := rfl
@[simp] theorem emitOutput_txlogLast (o : Output) (s : State) : (emitOutput o s).txlogLast = s.txlogLast := rfl
@[simp] theorem emitOutput_raw (o : Output) (s : State) : (emitOutput o s).raw = s.raw := rfl
@[simp] theorem emitOutput_stable (o : Output) (s : State) : (emitOutput o s).stable = s.stable := rfl
@[simp] theorem emitOutput_swLatch (o : Output) (s : State) : (emitOutput o s).swLatch = s.swLatch := rfl
@[simp] theorem emitOutput_mode (o : Output) (s : State) : (emitOutput o s).mode = s.mode := rfl
@[simp] theorem emitOutput_lockRequested (o : Output) (s : State) : (emitOutput o s).lockRequested = s.lockRequested := rfl
@[simp] theorem emitOutput_posLast (o : Output) (s : State) : (emitOutput o s).posLast = s.posLast := rfl
@[simp] theorem emitOutput_ctlState (o : Output) (s : State) : (emitOutput o s).ctlState = s.ctlState := rfl
@[simp] theorem emitOutput_doorOpenSince (o : Output) (s : State) : (emitOutput o s).doorOpenSince = s.doorOpenSince := rfl
@[simp] theorem emitOutput_doorStateLastChanged (o : Output) (s : State) : (emitOutput o s).doorStateLastChanged = s.doorStateLastChanged := rfl
@[simp] theorem emitOutput_posAtEntry (o : Output) (s : State) : (emitOutput o s).posAtEntry = s.posAtEntry := rfl
@[simp] theorem emitOutput_triggerRelease (o : Output) (s : State) : (emitOutput o s).triggerRelease = s.triggerRelease := rfl
@[simp] theorem emitOutput_lockActive (o : Output) (s : State) : (emitOutput o s).lockActive = s.lockActive := rfl
@[simp] theorem emitOutput_lockRelay (o : Output) (s : State) : (emitOutput o s).lockRelay = s.lockRelay := rfl
@[simp] theorem emitOutput_pulseActive (o : Output) (s : State) : (emitOutput o s).pulseActive = s.pulseActive := rfl
@[simp] theorem emitOutput_pulseStart (o : Output) (s : State) : (emitOutput o s).pulseStart = s.pulseStart := rfl
@[simp] theorem emitOutput_reminderValid (o : Output) (s : State) : (emitOutput o s).reminderValid = s.reminderValid := rfl
@[simp] theorem emitOutput_reminderLast (o : Output) (s : State) : (emitOutput o s).reminderLast = s.reminderLast := rfl
@[simp] theorem emitOutput_cfg (o : Output) (s : State) : (emitOutput o s).cfg = s.cfg := rfl
@[simp] theorem emitOutput_pending (o : Output) (s : State) : (emitOutput o s).pending = s.pending := rfl
@[simp] theorem emitOutput_out (o : Output) (s : State) : (emitOutput o s).out = s.out ++ [o] := rfl
@[simp] theorem emitOutput_result (o : Output) (s : State) : (emitOutput o s).result = s.result := rfl
@[simp] theorem emitOutput_epoch (o : Output) (s : State) : (emitOutput o s).epoch = s.epoch := rfl

/-! ### `emit`, `raise` and `transmit` are `emitOutput` -/

@[simp] theorem emit_eq (e : Event) (s : State) : emit e s = emitOutput (.diag e) s := rfl
@[simp] theorem raise_eq (e : Event) (s : State) : raise e s = emitOutput (.diag e) s := rfl
@[simp] theorem transmit_eq (f : List Byte) (s : State) : transmit f s = emitOutput (.tx f) s := rfl

/-! ### `returning` writes `result` only -/

@[simp] theorem returning_rxState (r : Result) (s : State) : (returning r s).rxState = s.rxState := rfl
@[simp] theorem returning_rxLen (r : Result) (s : State) : (returning r s).rxLen = s.rxLen := rfl
@[simp] theorem returning_rxCk (r : Result) (s : State) : (returning r s).rxCk = s.rxCk := rfl
@[simp] theorem returning_rxBuf (r : Result) (s : State) : (returning r s).rxBuf = s.rxBuf := rfl
@[simp] theorem returning_q (r : Result) (s : State) : (returning r s).q = s.q := rfl
@[simp] theorem returning_rxlogValid (r : Result) (s : State) : (returning r s).rxlogValid = s.rxlogValid := rfl
@[simp] theorem returning_rxlogLast (r : Result) (s : State) : (returning r s).rxlogLast = s.rxlogLast := rfl
@[simp] theorem returning_debugOut (r : Result) (s : State) : (returning r s).debugOut = s.debugOut := rfl
@[simp] theorem returning_seqSelValid (r : Result) (s : State) : (returning r s).seqSelValid = s.seqSelValid := rfl
@[simp] theorem returning_seqCmd (r : Result) (s : State) : (returning r s).seqCmd = s.seqCmd := rfl
@[simp] theorem returning_seqIdx (r : Result) (s : State) : (returning r s).seqIdx = s.seqIdx := rfl
@[simp] theorem returning_seqLastValid (r : Result) (s : State) : (returning r s).seqLastValid = s.seqLastValid := rfl
@[simp] theorem returning_seqLast (r : Result) (s : State) : (returning r s).seqLast = s.seqLast := rfl
@[simp] theorem returning_txlogValid (r : Result) (s : State) : (returning r s).txlogValid = s.txlogValid := rfl
@[simp] theorem returning_txlogLast (r : Result) (s : State) : (returning r s).txlogLast = s.txlogLast := rfl
@[simp] theorem returning_raw (r : Result) (s : State) : (returning r s).raw = s.raw := rfl
@[simp] theorem returning_stable (r : Result) (s : State) : (returning r s).stable = s.stable := rfl
@[simp] theorem returning_swLatch (r : Result) (s : State) : (returning r s).swLatch = s.swLatch := rfl
@[simp] theorem returning_mode (r : Result) (s : State) : (returning r s).mode = s.mode := rfl
@[simp] theorem returning_lockRequested (r : Result) (s : State) : (returning r s).lockRequested = s.lockRequested := rfl
@[simp] theorem returning_posLast (r : Result) (s : State) : (returning r s).posLast = s.posLast := rfl
@[simp] theorem returning_ctlState (r : Result) (s : State) : (returning r s).ctlState = s.ctlState := rfl
@[simp] theorem returning_doorOpenSince (r : Result) (s : State) : (returning r s).doorOpenSince = s.doorOpenSince := rfl
@[simp] theorem returning_doorStateLastChanged (r : Result) (s : State) : (returning r s).doorStateLastChanged = s.doorStateLastChanged := rfl
@[simp] theorem returning_posAtEntry (r : Result) (s : State) : (returning r s).posAtEntry = s.posAtEntry := rfl
@[simp] theorem returning_triggerRelease (r : Result) (s : State) : (returning r s).triggerRelease = s.triggerRelease := rfl
@[simp] theorem returning_lockActive (r : Result) (s : State) : (returning r s).lockActive = s.lockActive := rfl
@[simp] theorem returning_lockRelay (r : Result) (s : State) : (returning r s).lockRelay = s.lockRelay := rfl
@[simp] theorem returning_pulseActive (r : Result) (s : State) : (returning r s).pulseActive = s.pulseActive := rfl
@[simp] theorem returning_pulseStart (r : Result) (s : State) : (returning r s).pulseStart = s.pulseStart := rfl
@[simp] theorem returning_reminderValid (r : Result) (s : State) : (returning r s).reminderValid = s.reminderValid := rfl
@[simp] theorem returning_reminderLast (r : Result) (s : State) : (returning r s).reminderLast = s.reminderLast := rfl
@[simp] theorem returning_cfg (r : Result) (s : State) : (returning r s).cfg = s.cfg := rfl
@[simp] theorem returning_pending (r : Result) (s : State) : (returning r s).pending = s.pending := rfl
@[simp] theorem returning_out (r : Result) (s : State) : (returning r s).out = s.out := rfl
@[simp] theorem returning_result (r : Result) (s : State) : (returning r s).result = r := rfl
@[simp] theorem returning_epoch (r : Result) (s : State) : (returning r s).epoch = s.epoch := rfl

/-! ### Sensor flags -/

@[simp] theorem SensorFlags.get_set_self (f : SensorFlags) (x : Sensor) (v : Bool) :
    (f.set x v).get x = v := by cases x <;> rfl

@[simp] theorem SensorFlags.get_set_of_ne (f : SensorFlags) (x y : Sensor) (v : Bool) (h : y ≠ x) :
    (f.set x v).get y = f.get y := by cases x <;> cases y <;> first | rfl | exact absurd rfl h

theorem SensorFlags.ext_get (f g : SensorFlags) (h : ∀ x, f.get x = g.get x) : f = g := by
  cases f; cases g
  have := h .airA; have := h .airB; have := h .radarA; have := h .radarB
  simp_all [SensorFlags.get]

/-! ### Outcomes in sequence -/

@[simp] theorem andThen_next (s : State) (f : State → Host.Outcome State Fault Refusal) :
    andThen (.next s) f = f s := rfl
@[simp] theorem andThen_fault (r : Fault) (f : State → Host.Outcome State Fault Refusal) :
    andThen (.fault r) f = .fault r := rfl
@[simp] theorem andThen_refused (r : Refusal) (f : State → Host.Outcome State Fault Refusal) :
    andThen (.refused r) f = .refused r := rfl

/-- What a sequence that answers a next state went through. -/
theorem andThen_eq_next (o : Host.Outcome State Fault Refusal)
    (f : State → Host.Outcome State Fault Refusal) (t : State) :
    andThen o f = .next t ↔ ∃ s, o = .next s ∧ f s = .next t := by
  cases o <;> simp

end Sys2Proof.Machine
end

