-- ==== Sys2Proof/Laws/Flags.lean ====
section
/-! SUPPORT. For each condition of Flags.lean, what it says in words of the state. -/

namespace Sys2Proof.Machine

theorem hasElapsed_iff (now stamp duration : Time) :
    hasElapsed now stamp duration = true ↔ duration ≤ now - stamp := by simp [hasElapsed]

theorem doorStepActive_iff (s : State) : doorStepActive s = true ↔ s.mode = 2 ∨ s.mode = 3 := by
  simp [doorStepActive]

theorem airClear_iff (s : State) :
    airClear s = true ↔ s.stable.get .airA = false ∧ s.stable.get .airB = false := by
  simp [airClear]

theorem radarActive_iff (s : State) :
    radarActive s = true ↔ s.stable.get .radarA = true ∨ s.stable.get .radarB = true := by
  simp [radarActive]

theorem allSensorsClear_iff (s : State) :
    allSensorsClear s = true ↔ ∀ x : Sensor, s.stable.get x = false := by
  simp only [allSensorsClear, airClear, radarActive, Bool.and_eq_true, Bool.not_eq_true',
    Bool.or_eq_false_iff]
  constructor
  · rintro ⟨⟨h0, h1⟩, h2, h3⟩ x
    cases x <;> assumption
  · exact fun h => ⟨⟨h _, h _⟩, h _, h _⟩

theorem latchSet_iff (s : State) : latchSet s = true ↔ true ∈ s.swLatch := by simp [latchSet]

theorem heldOpen_iff (now : Time) (s : State) :
    heldOpen now s = true ↔ s.cfg.minHold ≤ now - s.doorOpenSince := hasElapsed_iff _ _ _

/-- The release trigger in `AUTOMATIC` (R190). -/
theorem releaseTrigger_automatic (now : Time) (s : State) (h : s.mode = 3) :
    releaseTrigger now s = (allSensorsClear s && heldOpen now s) := by simp [releaseTrigger, h]

/-- The release trigger in `MANUAL` (R191). -/
theorem releaseTrigger_manual (now : Time) (s : State) (h : s.mode = 2) :
    releaseTrigger now s = (airClear s && latchSet s) := by simp [releaseTrigger, h]

/-- The open trigger in `AUTOMATIC` (R195). -/
theorem openTrigger_automatic (s : State) (h : s.mode = 3) : openTrigger s = radarActive s := by
  simp [openTrigger, h]

/-- The open trigger in `MANUAL` (R195). -/
theorem openTrigger_manual (s : State) (h : s.mode = 2) : openTrigger s = latchSet s := by
  simp [openTrigger, h]

theorem transitionExpired_iff (now : Time) (s : State) :
    transitionExpired now s = true ↔ s.cfg.transitionTimeout ≤ now - s.doorStateLastChanged :=
  hasElapsed_iff _ _ _

theorem requestPending_iff (s : State) :
    requestPending s = true ↔ s.lockRequested ≠ s.lockActive := by simp [requestPending]

theorem doorFullyClosed_iff (s : State) :
    doorFullyClosed s = true ↔ s.ctlState = .closed ∨ s.ctlState = .closedLocked := by
  simp [doorFullyClosed]

theorem pulseOver_iff (now : Time) (s : State) :
    pulseOver now s = true ↔ s.cfg.lockPulseDuration ≤ now - s.pulseStart := hasElapsed_iff _ _ _

theorem reminderDue_iff (now : Time) (s : State) :
    reminderDue now s = true ↔
      s.reminderValid = false ∨ s.cfg.reminderInterval ≤ now - s.reminderLast := by
  simp [reminderDue, hasElapsed_iff]

theorem sendGateOpen_iff (now : Time) (s : State) :
    sendGateOpen now s = true ↔ s.seqLastValid = false ∨ s.cfg.sendInterval ≤ now - s.seqLast := by
  simp [sendGateOpen, hasElapsed_iff]

theorem rxlogDue_iff (p : Payload) (s : State) :
    rxlogDue p s = true ↔ s.debugOut = true ∨ s.rxlogValid = false ∨ s.rxlogLast ≠ p := by
  simp [rxlogDue, or_assoc]

theorem txlogDue_iff (p : Payload) (s : State) :
    txlogDue p s = true ↔ s.debugOut = true ∨ s.txlogValid = false ∨ s.txlogLast ≠ p := by
  simp [txlogDue, or_assoc]

end Sys2Proof.Machine
end

