-- ==== Sys2Proof/Laws/Memory.lean ====
section
/-! SUPPORT. The laws of `rx_buf`: read after write, and the canonical form. -/

namespace Sys2Proof.Machine

@[simp] theorem Memory.read_nil (a : Nat) : Memory.read [] a = none := rfl

/-- Reading an index just written gives the byte written. -/
@[simp] theorem Memory.read_write_self (m : Memory) (a : Nat) (v : Byte) :
    Memory.read (Memory.write m a v) a = some v := by
  induction m with
  | nil => simp [Memory.write, Memory.read]
  | cons c r ih =>
    obtain ⟨a', v'⟩ := c
    simp only [Memory.write]
    split
    · simp [Memory.read]
    · split
      · simp [Memory.read]
      · simp [Memory.read, *]

/-- A write leaves every other index as it was. -/
@[simp] theorem Memory.read_write_of_ne (m : Memory) (a b : Nat) (v : Byte) (h : b ≠ a) :
    Memory.read (Memory.write m a v) b = Memory.read m b := by
  induction m with
  | nil => simp [Memory.write, Memory.read, h]
  | cons c r ih =>
    obtain ⟨a', v'⟩ := c
    simp only [Memory.write]
    split
    · simp [Memory.read, h]
    · split
      · next h1 => subst h1; simp [Memory.read, h]
      · simp only [Memory.read, ih]

/-- The entries after a write are the one written and entries from before. -/
theorem Memory.mem_write (m : Memory) (a : Nat) (v : Byte) (c : Host.Cell)
    (h : c ∈ Memory.write m a v) : c = (a, v) ∨ c ∈ m := by
  induction m with
  | nil => simpa [Memory.write] using h
  | cons d r ih =>
    obtain ⟨a', v'⟩ := d
    simp only [Memory.write] at h
    split at h
    · simp only [List.mem_cons] at h ⊢; tauto
    · split at h
      · simp only [List.mem_cons] at h ⊢; tauto
      · simp only [List.mem_cons] at h ⊢
        rcases h with h | h
        · exact .inr (.inl h)
        · rcases ih h with h | h <;> tauto

/-- A write at an index that exists keeps the canonical form. -/
theorem Memory.wf_write (m : Memory) (a : Nat) (v : Byte) (hm : Memory.wf m)
    (ha : a < Config.maxPayload) : Memory.wf (Memory.write m a v) := by
  obtain ⟨hp, hb⟩ := hm
  refine ⟨?_, fun c hc => ?_⟩
  · clear hb
    induction m with
    | nil => simp [Memory.write]
    | cons d r ih =>
      obtain ⟨a', v'⟩ := d
      rw [List.pairwise_cons] at hp
      simp only [Memory.write]
      split
      · next h =>
        rw [List.pairwise_cons, List.pairwise_cons]
        refine ⟨fun c hc => ?_, hp⟩
        rcases List.mem_cons.mp hc with rfl | hc
        · exact h
        · exact lt_trans h (hp.1 c hc)
      · split
        · next h => subst h; rw [List.pairwise_cons]; exact hp
        · rw [List.pairwise_cons]
          refine ⟨fun c hc => ?_, ih hp.2⟩
          rcases Memory.mem_write r a v c hc with rfl | hc
          · show a' < a
            omega
          · exact hp.1 c hc
  · rcases Memory.mem_write m a v c hc with rfl | hc
    · exact ha
    · exact hb c hc

theorem Memory.wf_nil : Memory.wf [] := ⟨List.Pairwise.nil, by simp⟩

/-- The memory of the reset state has the canonical form. -/
theorem State.reset_rxBuf_wf : Memory.wf State.reset.rxBuf := Memory.wf_nil

/-- The one operation that stores to `rx_buf`: either the index exists and the byte is written, or
it faults. -/
theorem storeRxByte_cases (v : Byte) (s : State) :
    (s.rxLen < Config.maxPayload ∧
      storeRxByte v s = .next { s with rxBuf := Memory.write s.rxBuf s.rxLen v }) ∨
    (Config.maxPayload ≤ s.rxLen ∧ storeRxByte v s = .fault (.rxBufIndex s.rxLen)) := by
  unfold storeRxByte
  split
  · exact .inl ⟨by assumption, rfl⟩
  · exact .inr ⟨by omega, rfl⟩

/-- A byte of the state after a write to the buffer. -/
@[simp] theorem State.rxByte_write (s : State) (a b : Nat) (v : Byte) :
    State.rxByte { s with rxBuf := Memory.write s.rxBuf a v } b = if b = a then v else s.rxByte b := by
  unfold State.rxByte
  split
  · next h => subst h; simp
  · next h => simp [h]

end Sys2Proof.Machine
end

