-- ==== Sys2Proof/Laws/Ops.lean ====
section
/-! SUPPORT. For each shared operation of the machine, one lemma that says all it can do or which
registers are all it writes. -/

namespace Sys2Proof.Machine

open Sys2Proof.Safety

/-! ### Moves of the agents -/

@[simp] theorem operation_edge (x : Sensor) (v : Bool) :
    (Move.edge x v).operation = .ok (.rawwr (sensorIndex x) v) := rfl

/-- An index that names a sensor is the index of that sensor (R97). -/
theorem sensorIndex_of_sensorOfIndex {k : Byte} {x : Sensor} (h : sensorOfIndex k = some x) :
    sensorIndex x = k := by
  unfold sensorOfIndex at h
  split at h <;> cases h <;> (apply BitVec.eq_of_toNat_eq; simp [sensorIndex, *])

/-- A record holds an operation exactly when it decodes to it with nothing left over. -/
theorem recordOp_ok {record : List Byte} {i : Instr} :
    recordOp record = .ok i ↔ decode .hostop record = .ok (i, []) := by
  unfold recordOp
  split <;> simp_all

/-- The move of an operation issues that operation, whoever makes it. -/
theorem moveOf_operation {i : Instr} {record : List Byte}
    (h : decode .hostop record = .ok (i, [])) : (moveOf i record).operation = .ok i := by
  have loop : (Move.loop record).operation = .ok i := recordOp_ok.mpr h
  unfold moveOf
  split
  · split
    · rename_i e
      rw [operation_edge, sensorIndex_of_sensorOfIndex e]
    · exact loop
  · exact loop

/-- All that the fetch can answer: nothing is pending, or the oldest move's operation with the moves
after it, or the reason the oldest move holds no operation. -/
theorem fetch_cases (s : State) :
    (s.pending = [] ∧ fetch s = .ok none) ∨
    ∃ (m : Move) (r : List Move), s.pending = m :: r ∧
      ((∃ i, m.operation = .ok i ∧ fetch s = .ok (some (i, r))) ∨
       (∃ e, m.operation = .error e ∧ fetch s = .error e)) := by
  unfold fetch
  split
  · exact .inl ⟨‹_›, rfl⟩
  · rename_i m r h
    refine .inr ⟨m, r, h, ?_⟩
    split
    · exact .inl ⟨_, ‹_›, rfl⟩
    · exact .inr ⟨_, ‹_›, rfl⟩

/-! ### Queue -/

/-- The queue after `ENQUEUE p` (R142, phase 1). -/
theorem enqueueStore_q (p : Payload) (s : State) :
    (enqueueStore p s).q = (if s.q.length = s.cfg.queueCap then s.q.drop 1 else s.q) ++ [p] := rfl

/-- All that `ENQUEUE` can do: the payload is stored, and it is logged and announced, or only
announced. -/
theorem enqueue_cases (p : Payload) (s : State) :
    (rxlogDue p s = true ∧ enqueue p s = { s with
      q := (enqueueStore p s).q, rxlogLast := p, rxlogValid := true,
      out := s.out ++ [.diag (.iRxlog p (enqueueStore p s).q.length), .newMsg p] }) ∨
    (rxlogDue p s = false ∧ enqueue p s = { s with
      q := (enqueueStore p s).q, out := s.out ++ [.newMsg p] }) := by
  have e : rxlogDue p (enqueueStore p s) = rxlogDue p s := rfl
  unfold enqueue enqueueLog
  rw [e]
  cases rxlogDue p s
  · exact .inr ⟨rfl, rfl⟩
  · refine .inl ⟨rfl, ?_⟩
    simp [emitOutput, emit, enqueueStore, State.qDepth]

/-- `ENQUEUE` writes the queue, its log registers and the output only. -/
theorem enqueue_frame (p : Payload) (s : State) :
    enqueue p s = { s with
      q := (enqueue p s).q, rxlogValid := (enqueue p s).rxlogValid,
      rxlogLast := (enqueue p s).rxlogLast, out := (enqueue p s).out } := by
  rcases enqueue_cases p s with ⟨_, e⟩ | ⟨_, e⟩ <;> rw [e]

/-- The queue after `ENQUEUE p`, whatever is logged (R145). -/
theorem enqueue_q (p : Payload) (s : State) : (enqueue p s).q = (enqueueStore p s).q := by
  rcases enqueue_cases p s with ⟨_, e⟩ | ⟨_, e⟩ <;> rw [e]

/-! ### Decoder -/

/-- All that `Append` can do (R126). -/
theorem appendByte_cases (v : Byte) (s : State) :
    (s.rxLen + 1 < Config.maxPayload ∧ appendByte v s =
      .next { s with rxBuf := Memory.write s.rxBuf s.rxLen v, rxLen := s.rxLen + 1 }) ∨
    (s.rxLen + 1 = Config.maxPayload ∧ appendByte v s =
      .next { s with
        rxBuf := Memory.write s.rxBuf s.rxLen v, rxLen := s.rxLen + 1, rxState := .idle,
        out := s.out ++ [.diag .eOversize] }) ∨
    (Config.maxPayload ≤ s.rxLen ∧ appendByte v s = .fault (.rxBufIndex s.rxLen)) := by
  unfold appendByte
  rcases storeRxByte_cases v s with ⟨h, e⟩ | ⟨h, e⟩
  · rw [e]
    simp only [andThen_next, oversizeGuard]
    split
    · exact .inr (.inl ⟨by assumption, rfl⟩)
    · exact .inl ⟨by omega, rfl⟩
  · rw [e]
    exact .inr (.inr ⟨h, rfl⟩)

/-- A received byte that is answered by a next state writes the decoder's registers, the queue, its
log registers and the output only. -/
theorem receiveByte_frame (b : Byte) (s t : State) (h : receiveByte b s = .next t) :
    t = { s with
      rxState := t.rxState, rxLen := t.rxLen, rxCk := t.rxCk, rxBuf := t.rxBuf, q := t.q,
      rxlogValid := t.rxlogValid, rxlogLast := t.rxlogLast, out := t.out } := by
  have app : ∀ v u, appendByte v u = .next t → t = { u with
      rxState := t.rxState, rxLen := t.rxLen, rxBuf := t.rxBuf, out := t.out } := by
    intro v u hu
    rcases appendByte_cases v u with ⟨_, e⟩ | ⟨_, e⟩ | ⟨_, e⟩ <;> rw [e] at hu <;> cases hu <;> rfl
  unfold receiveByte at h
  split at h
  · cases h; unfold rxIdle; split <;> rfl
  · cases h; unfold rxAwaitStx; (repeat' split) <;> rfl
  · unfold rxInFrame at h
    split at h
    · cases h; rfl
    · rw [app _ _ h]
  · unfold rxAfterDle at h
    split at h
    · rw [app _ _ h]
    · split at h <;> cases h <;> rfl
  · cases h
    unfold rxAwaitChecksum
    split
    · rw [enqueue_frame]
    · rfl

/-! ### Sequencer -/

/-- All that `SELECT` does to the sequencer (R156, R157). -/
theorem selectCommand_cases (code : Byte) (s : State) :
    (selectOk code s = true ∧ selectCommand code s = withSelected code s) ∨
    (selectOk code s = false ∧ selectCommand code s = s) := by
  unfold selectCommand
  cases h : selectOk code s
  · exact .inr ⟨rfl, rfl⟩
  · exact .inl ⟨rfl, rfl⟩

/-- `SELECT` writes four of the sequencer's registers only. -/
theorem selectCommand_frame (code : Byte) (s : State) :
    selectCommand code s = { s with
      seqCmd := (selectCommand code s).seqCmd, seqSelValid := (selectCommand code s).seqSelValid,
      seqIdx := (selectCommand code s).seqIdx,
      seqLastValid := (selectCommand code s).seqLastValid } := by
  rcases selectCommand_cases code s with ⟨_, e⟩ | ⟨_, e⟩
  · rw [e]; rfl
  · rw [e]

/-- All that `SEQTICK` can do (R158): nothing, or one transmission of the selected command. -/
theorem seqTick_cases (now : Time) (s : State) :
    seqTick now s = s ∨
    ∃ d, s.seqSelValid = true ∧ sendGateOpen now s = true ∧ commandOf s.cfg s.seqCmd = some d ∧
      seqTick now s = sendNext now d s := by
  unfold seqTick
  split
  · next h =>
    rw [Bool.and_eq_true] at h
    split
    · next d hd => exact .inr ⟨d, h.1, h.2, hd, rfl⟩
    · exact .inl rfl
  · exact .inl rfl

/-- All that the suppressed log of a transmission can do (R158, R161). -/
theorem txLog_cases (p : Payload) (s : State) :
    (txlogDue p s = true ∧ txLog p s = { s with
      txlogLast := p, txlogValid := true, out := s.out ++ [.diag (.iTxlog p)] }) ∨
    (txlogDue p s = false ∧ txLog p s = s) := by
  unfold txLog
  cases h : txlogDue p s
  · exact .inr ⟨rfl, rfl⟩
  · exact .inl ⟨rfl, rfl⟩

/-- All that one transmission can do: the frame, the stamp, and the log or not (R158). -/
theorem sendNext_cases (now : Time) (d : Config.CommandDef) (s : State) :
    (txlogDue (nextPayload d s.seqIdx) s = true ∧ sendNext now d s = { s with
      seqIdx := nextIndex d s.seqIdx, seqLast := now, seqLastValid := true,
      txlogLast := nextPayload d s.seqIdx, txlogValid := true,
      out := s.out ++ [.tx (frameOf (nextPayload d s.seqIdx)),
        .diag (.iTxlog (nextPayload d s.seqIdx))] }) ∨
    (txlogDue (nextPayload d s.seqIdx) s = false ∧ sendNext now d s = { s with
      seqIdx := nextIndex d s.seqIdx, seqLast := now, seqLastValid := true,
      out := s.out ++ [.tx (frameOf (nextPayload d s.seqIdx))] }) := by
  have e : ∀ p, txlogDue p { transmit (frameOf (nextPayload d s.seqIdx)) s with
      seqIdx := nextIndex d s.seqIdx, seqLast := now, seqLastValid := true } = txlogDue p s :=
    fun _ => rfl
  unfold sendNext
  rcases txLog_cases (nextPayload d s.seqIdx) { transmit (frameOf (nextPayload d s.seqIdx)) s with
      seqIdx := nextIndex d s.seqIdx, seqLast := now, seqLastValid := true } with ⟨h, h'⟩ | ⟨h, h'⟩
  · rw [e] at h
    refine .inl ⟨h, ?_⟩
    rw [h']
    simp [emitOutput]
  · rw [e] at h
    refine .inr ⟨h, ?_⟩
    rw [h']
    simp [emitOutput]

/-- `SEQTICK` writes the sequencer's index, stamp and log registers and the output only. -/
theorem seqTick_frame (now : Time) (s : State) :
    seqTick now s = { s with
      seqIdx := (seqTick now s).seqIdx, seqLast := (seqTick now s).seqLast,
      seqLastValid := (seqTick now s).seqLastValid, txlogValid := (seqTick now s).txlogValid,
      txlogLast := (seqTick now s).txlogLast, out := (seqTick now s).out } := by
  rcases seqTick_cases now s with e | ⟨d, _, _, _, e⟩
  · rw [e]
  · rw [e]; unfold sendNext txLog; split <;> rfl

/-! ### Sensors -/

/-- `RECONCILE` writes the stable flags and the output only, and the stable flags become the raw
ones (R173, R175). -/
theorem reconcile_frame (s : State) :
    reconcile s = { s with stable := s.raw, out := (reconcile s).out } := by
  have one : ∀ x u, reconcileSensor x u = { u with
      stable := u.stable.set x (u.raw.get x), out := (reconcileSensor x u).out } := by
    intro x u
    unfold reconcileSensor
    split
    · rfl
    · next h =>
      have : u.stable.set x (u.raw.get x) = u.stable := by
        have h : u.raw.get x = u.stable.get x := by simpa using h
        rw [h]; cases x <;> rfl
      rw [this]
  unfold reconcile
  rw [one .radarB, one .radarA, one .airB, one .airA]
  rfl

/-! ### Door -/

/-- All that `SetCtl` can do (R186). -/
theorem setCtl_cases (now : Time) (new : CtlState) (s : State) :
    (new = s.ctlState ∧ setCtl now new s = s) ∨
    (new ≠ s.ctlState ∧ setCtl now new s = movedTo now new s) := by
  unfold setCtl
  split
  · exact .inr ⟨by assumption, rfl⟩
  · exact .inl ⟨by simp_all, rfl⟩

/-- `SetCtl` leaves the new state in force. -/
@[simp] theorem setCtl_ctlState (now : Time) (new : CtlState) (s : State) :
    (setCtl now new s).ctlState = new := by
  rcases setCtl_cases now new s with ⟨h, e⟩ | ⟨_, e⟩ <;> rw [e]
  · exact h.symm
  · rfl

/-- `SetCtl` writes the control state, its stamp and the output only. -/
theorem setCtl_frame (now : Time) (new : CtlState) (s : State) :
    setCtl now new s = { s with
      ctlState := new, doorStateLastChanged := (setCtl now new s).doorStateLastChanged,
      out := (setCtl now new s).out } := by
  rcases setCtl_cases now new s with ⟨h, e⟩ | ⟨_, e⟩ <;> rw [e]
  · subst h; rfl
  · rfl

/-- The state a fired trigger leads to: the command selected, the latches cleared, the entry position
held, the machine in `TRANSITION` (R192, R196, R198). -/
def firedState (now : Time) (pos : Position) (command : Byte) (s : State) : State :=
  movedTo now .transition
    { selectCommand command { s with triggerRelease := true } with
      swLatch := s.swLatch.map (fun _ => false), posAtEntry := pos }

/-- A trigger fired outside `TRANSITION`. -/
theorem fireTrigger_eq (now : Time) (pos : Position) (trig : Bool) (command : Byte) (s : State)
    (h : s.ctlState ≠ .transition) :
    fireTrigger now pos trig command s =
      if trig then firedState now pos command s else { s with triggerRelease := false } := by
  unfold fireTrigger enterTransition firedState
  cases trig
  · rfl
  · simp only [if_true]
    rw [selectCommand_frame]
    unfold setCtl
    rw [if_pos (fun e => h e.symm)]
    rfl

/-- The contradiction of position and state that the arms test first (R189, R193, R197). -/
def contradicts (pos : Position) (s : State) : Prop :=
  (s.ctlState = .opened ∧ pos ≠ .opened) ∨
    ((s.ctlState = .closed ∨ s.ctlState = .closedLocked) ∧ pos ≠ .closed)

/-- All that the arm of the control state can do, with the guard of each case (R187 to R200). -/
theorem doorArm_cases (now : Time) (pos : Position) (s : State) (hr : s.triggerRelease = false) :
    doorArm now pos s = s ∨
    (s.ctlState = .undefined ∧ pos = .opened ∧ doorArm now pos s = movedTo now .openStart s) ∨
    (s.ctlState = .undefined ∧ pos = .closed ∧ doorArm now pos s = movedTo now .closed s) ∨
    (s.ctlState = .openStart ∧
      doorArm now pos s = movedTo now .opened { s with doorOpenSince := now }) ∨
    (contradicts pos s ∧
      doorArm now pos s = movedTo now .undefined (raise (.eInconsistent s.ctlState pos) s)) ∨
    (s.ctlState = .closed ∧ pos = .closed ∧ s.lockActive = true ∧
      doorArm now pos s = movedTo now .closedLocked s) ∨
    (s.ctlState = .closedLocked ∧ pos = .closed ∧ s.lockActive = false ∧
      doorArm now pos s = movedTo now .closed s) ∨
    (s.ctlState = .transition ∧ (pos ≠ s.posAtEntry ∨ transitionExpired now s = true) ∧
      doorArm now pos s = movedTo now (fallbackState pos) s) ∨
    (s.ctlState = .opened ∧ pos = .opened ∧ releaseTrigger now s = true ∧
      doorArm now pos s = firedState now pos tokenCloseCode s) ∨
    (s.ctlState = .closed ∧ pos = .closed ∧ s.lockActive = false ∧ openTrigger s = true ∧
      doorArm now pos s = firedState now pos tokenOpenCode s) := by
  have moved : ∀ new u, new ≠ u.ctlState → setCtl now new u = movedTo now new u := by
    intro new u h; unfold setCtl; rw [if_pos h]; rfl
  have same : ({ s with triggerRelease := false } : State) = s := by rw [← hr]
  unfold doorArm
  cases hc : s.ctlState <;> simp only
  · cases pos <;> simp only [doorUndefined]
    · rw [moved _ s (by rw [hc]; decide)]; simp
    · simp
    · rw [moved _ s (by rw [hc]; decide)]; simp
    · simp
    · simp
  · unfold doorOpenStart
    rw [moved _ _ (by simp [hc])]
    simp [hc]
  · unfold doorOpened
    split
    · next h =>
      unfold forceUndefined
      rw [moved _ _ (by simp [hc]), hc]
      simp [contradicts, hc, h]
    · next h =>
      rw [fireTrigger_eq _ _ _ _ _ (by rw [hc]; decide), same]
      split
      · simp_all
      · simp
  · unfold doorClosed
    split
    · next h =>
      unfold forceUndefined
      rw [moved _ _ (by simp [hc]), hc]
      simp [contradicts, hc, h]
    · next h =>
      split
      · rw [moved _ s (by rw [hc]; decide)]
        simp_all
      · rw [fireTrigger_eq _ _ _ _ _ (by rw [hc]; decide), same]
        split
        · simp_all
        · simp
  · unfold doorClosedLocked
    split
    · next h =>
      unfold forceUndefined
      rw [moved _ _ (by simp [hc]), hc]
      simp [contradicts, hc, h]
    · next h =>
      split
      · simp
      · rw [moved _ s (by rw [hc]; decide)]
        simp_all
  · unfold doorTransition
    split
    · next h =>
      rw [moved _ s (by rw [hc]; cases pos <;> decide)]
      simp_all
    · simp

/-- All that `DOORSTEP` can do: clear `trigger_release` only, or, in `MANUAL` and `AUTOMATIC`, run the
arm of the state (R185, R202). -/
theorem doorStep_cases (now : Time) (pos : Position) (s : State) :
    (doorStepActive s = false ∧ doorStep now pos s = clearRelease s) ∨
    (doorStepActive s = true ∧ doorStep now pos s = doorArm now pos (clearRelease s)) := by
  unfold doorStep
  cases doorStepActive s
  · exact .inl ⟨rfl, rfl⟩
  · exact .inr ⟨rfl, rfl⟩

/-- An arm of the door control machine writes its own registers, the latches, the sequencer's
selection and the output only (R206). -/
theorem doorArm_frame (now : Time) (pos : Position) (s : State) (hr : s.triggerRelease = false) :
    doorArm now pos s = { s with
      ctlState := (doorArm now pos s).ctlState,
      doorOpenSince := (doorArm now pos s).doorOpenSince,
      doorStateLastChanged := (doorArm now pos s).doorStateLastChanged,
      posAtEntry := (doorArm now pos s).posAtEntry,
      triggerRelease := (doorArm now pos s).triggerRelease,
      swLatch := (doorArm now pos s).swLatch, seqCmd := (doorArm now pos s).seqCmd,
      seqSelValid := (doorArm now pos s).seqSelValid, seqIdx := (doorArm now pos s).seqIdx,
      seqLastValid := (doorArm now pos s).seqLastValid, out := (doorArm now pos s).out } := by
  rcases doorArm_cases now pos s hr with e | ⟨_, _, e⟩ | ⟨_, _, e⟩ | ⟨_, e⟩ | ⟨_, e⟩ | ⟨_, _, _, e⟩ |
    ⟨_, _, _, e⟩ | ⟨_, _, e⟩ | ⟨_, _, _, e⟩ | ⟨_, _, _, _, e⟩ <;> rw [e] <;>
    first
    | rfl
    | (unfold firedState; rw [selectCommand_frame]; rfl)

/-- A step of the door control machine writes its own registers, the latches, the sequencer's
selection and the output only (R185, R206). -/
theorem doorStep_frame (now : Time) (pos : Position) (s : State) :
    doorStep now pos s = { s with
      ctlState := (doorStep now pos s).ctlState,
      doorOpenSince := (doorStep now pos s).doorOpenSince,
      doorStateLastChanged := (doorStep now pos s).doorStateLastChanged,
      posAtEntry := (doorStep now pos s).posAtEntry,
      triggerRelease := (doorStep now pos s).triggerRelease,
      swLatch := (doorStep now pos s).swLatch, seqCmd := (doorStep now pos s).seqCmd,
      seqSelValid := (doorStep now pos s).seqSelValid, seqIdx := (doorStep now pos s).seqIdx,
      seqLastValid := (doorStep now pos s).seqLastValid, out := (doorStep now pos s).out } := by
  rcases doorStep_cases now pos s with ⟨_, e⟩ | ⟨_, e⟩
  · rw [e]; rfl
  · rw [e, doorArm_frame now pos (clearRelease s) rfl]; rfl

/-! ### Lock -/

/-- The lock step writes its own registers and the output only (R215). -/
theorem lockStep_frame (now : Time) (s : State) :
    lockStep now s = { s with
      lockActive := (lockStep now s).lockActive, lockRelay := (lockStep now s).lockRelay,
      pulseActive := (lockStep now s).pulseActive, pulseStart := (lockStep now s).pulseStart,
      reminderValid := (lockStep now s).reminderValid,
      reminderLast := (lockStep now s).reminderLast, out := (lockStep now s).out } := by
  unfold lockStep runPulse honourRequest remind
  (repeat' split) <;> rfl

end Sys2Proof.Machine
end

