-- ==== Sys2Proof/Laws/Codec.lean ====
section
/-! SUPPORT. The frame format: stuffing, the checksum's XOR, operands read back, runs of bytes. -/

namespace Sys2Proof

/-! ### Stuffing and the XOR -/

theorem stuff_dle (r : Payload) : stuff (Config.dle :: r) = Config.dle :: Config.dle :: stuff r := rfl

theorem stuff_of_ne (b : Byte) (r : Payload) (h : b ≠ Config.dle) : stuff (b :: r) = b :: stuff r :=
  congrArg (· ++ stuff r) (if_neg h)

theorem stuff_append (p q : Payload) : stuff (p ++ q) = stuff p ++ stuff q := by
  induction p with
  | nil => rfl
  | cons b r ih => simp only [List.cons_append, stuff, ih, List.append_assoc]

theorem foldl_xor (l : List Byte) (x : Byte) : l.foldl (· ^^^ ·) x = x ^^^ xorBytes l := by
  induction l generalizing x with
  | nil => simp [xorBytes]
  | cons b r ih =>
    simp only [xorBytes, List.foldl_cons]
    rw [ih, ih (0 ^^^ b)]
    simp [BitVec.xor_assoc]

theorem xorBytes_cons (b : Byte) (l : List Byte) : xorBytes (b :: l) = b ^^^ xorBytes l := by
  simp only [xorBytes, List.foldl_cons]
  rw [foldl_xor]
  simp [xorBytes]

theorem xorBytes_append (k l : List Byte) : xorBytes (k ++ l) = xorBytes k ^^^ xorBytes l := by
  simp only [xorBytes, List.foldl_append]
  rw [foldl_xor]
  simp [xorBytes]

/-- An escaped `DLE` leaves the running checksum as it was (R83, R125). -/
theorem xor_dle_twice (c : Byte) : (c ^^^ Config.dle) ^^^ Config.dle = c := by
  rw [BitVec.xor_assoc, BitVec.xor_self, BitVec.xor_zero]

/-! ### Operands read back from their bytes -/

theorem takeBit_bitBytes (v : Bool) (r : List Byte) : takeBit (bitBytes v ++ r) = .ok (v, r) := by
  cases v <;> rfl

theorem takeTime_timeBytes (t : Time) (r : List Byte) : takeTime (timeBytes t ++ r) = .ok (t, r) := by
  simp only [timeBytes, takeTime, List.cons_append, List.nil_append]
  congr 2
  apply BitVec.eq_of_getLsbD_eq
  intro i hi
  simp only [BitVec.getLsbD_append, BitVec.getLsbD_extractLsb']
  grind

theorem takePosCode_setWidth (p : BitVec 3) (r : List Byte) :
    takePosCode (p.setWidth 8 :: r) = .ok (p, r) := by
  have h : ∀ p : BitVec 3, (p.setWidth 8 : Byte).toNat < 8 ∧ (p.setWidth 8 : Byte).setWidth 3 = p := by
    decide
  rw [takePosCode, if_pos (h p).1, (h p).2]

theorem takePosition_positionCode (p : Position) (r : List Byte) :
    takePosition ((positionCode p).setWidth 8 :: r) = .ok (p, r) := by cases p <;> rfl

theorem takePayload_payloadBytes (p : Payload) (r : List Byte) :
    takePayload (payloadBytes p ++ r) = .ok (p, r) := by
  induction p with
  | nil => cases r <;> simp [payloadBytes, takePayload]
  | cons b q ih => simp [payloadBytes, takePayload, ih]

end Sys2Proof

namespace Sys2Proof.Machine

open Sys2Proof.Safety

/-! ### Runs of bytes and the collected payload -/

theorem feed_append (k l : List Byte) (s : State) :
    feed (k ++ l) s = andThen (feed k s) (feed l) := by
  induction k generalizing s with
  | nil => rfl
  | cons x r ih =>
    simp only [List.cons_append, feed]
    cases receiveByte x s <;> simp [ih]

/-- `FEED` is `RXBYTE` after `RXBYTE` (R100). -/
theorem runInstrs_rxbyte (l : List Byte) (s : State) : runInstrs (l.map .rxbyte) s = feed l s := by
  induction l generalizing s with
  | nil => rfl
  | cons b r ih =>
    simp only [List.map_cons, runInstrs, feed]
    show andThen (receiveByte b s) _ = _
    congr 1
    funext x
    exact ih x

/-- A byte stored at `rx_len` extends the collected payload by that byte (R63, R126). -/
theorem rxPayload_append (s : State) (v : Byte) :
    State.rxPayload { s with rxBuf := Memory.write s.rxBuf s.rxLen v, rxLen := s.rxLen + 1 }
      = s.rxPayload ++ [v] := by
  simp only [State.rxPayload, List.range_succ, List.map_append, List.map_cons, List.map_nil]
  congr 1
  · apply List.map_congr_left
    intro a ha
    have : a ≠ s.rxLen := by have := List.mem_range.mp ha; omega
    simp [State.rxByte, this]
  · simp [State.rxByte]

end Sys2Proof.Machine
end

