-- ==== Sys2Proof/Laws/PerInstr.lean ====
section
/-! SUPPORT. One lemma per instruction: a well-formed instruction belongs to an encoding space. -/

namespace Sys2Proof.Laws.Encodes

/-- A well-formed instruction has an encoding space its bytes are read in, with at least one byte in
it. -/
def Statement (i : Instr) : Prop :=
  WellFormed i = true → (∃ sp : Space, inSpace i sp = true) ∧ encode i ≠ []

/-- The bytes of a payload operand are never empty. -/
theorem payloadBytes_ne_nil (p : Payload) : payloadBytes p ≠ [] := by cases p <;> simp [payloadBytes]

theorem reset : Statement .reset := fun _ => ⟨⟨.hostop, rfl⟩, by simp [encode]⟩
theorem rxbyte (b : Byte) : Statement (.rxbyte b) := fun _ => ⟨⟨.hostop, rfl⟩, by simp [encode]⟩
theorem dequeue : Statement .dequeue := fun _ => ⟨⟨.hostop, rfl⟩, by simp [encode]⟩
theorem select (token : Byte) : Statement (.select token) :=
  fun _ => ⟨⟨.hostop, rfl⟩, by simp [encode]⟩
theorem seqtick (now : Time) : Statement (.seqtick now) :=
  fun _ => ⟨⟨.hostop, rfl⟩, by simp [encode]⟩
theorem rawwr (s : Byte) (v : Bool) : Statement (.rawwr s v) :=
  fun _ => ⟨⟨.hostop, rfl⟩, by simp [encode]⟩
theorem cycle (now : Time) (pos : BitVec 3) : Statement (.cycle now pos) :=
  fun _ => ⟨⟨.hostop, rfl⟩, by simp [encode]⟩
theorem setmode (m : Byte) : Statement (.setmode m) := fun _ => ⟨⟨.hostop, rfl⟩, by simp [encode]⟩
theorem setlockreq (v : Bool) : Statement (.setlockreq v) :=
  fun _ => ⟨⟨.hostop, rfl⟩, by simp [encode]⟩
theorem setlatch (i : Byte) : Statement (.setlatch i) :=
  fun _ => ⟨⟨.hostop, rfl⟩, by simp [encode]⟩
theorem setdebug (v : Bool) : Statement (.setdebug v) :=
  fun _ => ⟨⟨.hostop, rfl⟩, by simp [encode]⟩
theorem encode (p : Payload) : Statement (.encode p) :=
  fun _ => ⟨⟨.hostop, rfl⟩, by simp [Sys2Proof.encode]⟩
theorem unassignedC : Statement .unassignedC := fun _ => ⟨⟨.hostop, rfl⟩, by simp [Sys2Proof.encode]⟩
theorem unassignedD : Statement .unassignedD := fun _ => ⟨⟨.hostop, rfl⟩, by simp [Sys2Proof.encode]⟩
theorem unassignedE : Statement .unassignedE := fun _ => ⟨⟨.hostop, rfl⟩, by simp [Sys2Proof.encode]⟩
theorem unassignedF : Statement .unassignedF := fun _ => ⟨⟨.hostop, rfl⟩, by simp [Sys2Proof.encode]⟩
theorem cycleReconcile : Statement .cycleReconcile :=
  fun _ => ⟨⟨.phase, rfl⟩, by simp [Sys2Proof.encode]⟩
theorem cycleDoorstep (now : Time) (pos : Position) : Statement (.cycleDoorstep now pos) :=
  fun _ => ⟨⟨.phase, rfl⟩, by simp [Sys2Proof.encode]⟩
theorem cycleLockstep (now : Time) : Statement (.cycleLockstep now) :=
  fun _ => ⟨⟨.phase, rfl⟩, by simp [Sys2Proof.encode]⟩
theorem cycleSeqtick (now : Time) : Statement (.cycleSeqtick now) :=
  fun _ => ⟨⟨.phase, rfl⟩, by simp [Sys2Proof.encode]⟩
theorem enqueue (p : Payload) : Statement (.enqueue p) :=
  fun _ => ⟨⟨.subop, rfl⟩, payloadBytes_ne_nil p⟩
theorem rxIdleDle : Statement .rxIdleDle :=
  fun _ => ⟨⟨.wirebyte .idle 0, rfl⟩, by simp [Sys2Proof.encode]⟩
theorem rxIdleOther (b : Byte) : Statement (.rxIdleOther b) :=
  fun _ => ⟨⟨.wirebyte .idle 0, rfl⟩, by simp [Sys2Proof.encode]⟩
theorem rxAwaitStxStx : Statement .rxAwaitStxStx :=
  fun _ => ⟨⟨.wirebyte .awaitStx 0, rfl⟩, by simp [Sys2Proof.encode]⟩
theorem rxAwaitStxDle : Statement .rxAwaitStxDle :=
  fun _ => ⟨⟨.wirebyte .awaitStx 0, rfl⟩, by simp [Sys2Proof.encode]⟩
theorem rxAwaitStxOther (b : Byte) : Statement (.rxAwaitStxOther b) :=
  fun _ => ⟨⟨.wirebyte .awaitStx 0, rfl⟩, by simp [Sys2Proof.encode]⟩
theorem rxInFrameDle : Statement .rxInFrameDle :=
  fun _ => ⟨⟨.wirebyte .inFrame 0, rfl⟩, by simp [Sys2Proof.encode]⟩
theorem rxInFrameData (b : Byte) : Statement (.rxInFrameData b) :=
  fun _ => ⟨⟨.wirebyte .inFrame 0, rfl⟩, by simp [Sys2Proof.encode]⟩
theorem rxAfterDleDle : Statement .rxAfterDleDle :=
  fun _ => ⟨⟨.wirebyte .afterDle 0, rfl⟩, by simp [Sys2Proof.encode]⟩
theorem rxAfterDleEtx : Statement .rxAfterDleEtx :=
  fun _ => ⟨⟨.wirebyte .afterDle 0, rfl⟩, by simp [Sys2Proof.encode]⟩
theorem rxAfterDleOther (b : Byte) : Statement (.rxAfterDleOther b) :=
  fun _ => ⟨⟨.wirebyte .afterDle 0, rfl⟩, by simp [Sys2Proof.encode]⟩
theorem rxAwaitChecksumGood (b : Byte) : Statement (.rxAwaitChecksumGood b) :=
  fun _ => ⟨⟨.wirebyte .awaitChecksum b, by simp [inSpace]⟩, by simp [Sys2Proof.encode]⟩
theorem rxAwaitChecksumBad (b : Byte) : Statement (.rxAwaitChecksumBad b) :=
  fun _ => ⟨⟨.wirebyte .awaitChecksum (b + 1), by simp [inSpace]⟩, by simp [Sys2Proof.encode]⟩
theorem frame (p : Payload) : Statement (.frame p) :=
  fun _ => ⟨⟨.wireframe, rfl⟩, by simp [Sys2Proof.encode, frameOf]⟩
theorem tokenOpen : Statement .tokenOpen := fun _ => ⟨⟨.token, rfl⟩, by simp [Sys2Proof.encode]⟩
theorem tokenOpening : Statement .tokenOpening := fun _ => ⟨⟨.token, rfl⟩, by simp [Sys2Proof.encode]⟩
theorem tokenClose : Statement .tokenClose := fun _ => ⟨⟨.token, rfl⟩, by simp [Sys2Proof.encode]⟩
theorem tokenClosing : Statement .tokenClosing := fun _ => ⟨⟨.token, rfl⟩, by simp [Sys2Proof.encode]⟩
theorem tokenClosed : Statement .tokenClosed := fun _ => ⟨⟨.token, rfl⟩, by simp [Sys2Proof.encode]⟩
theorem tokenInit (k : Byte) : Statement (.tokenInit k) :=
  fun _ => ⟨⟨.token, rfl⟩, by simp [Sys2Proof.encode]⟩

end Sys2Proof.Laws.Encodes
end

