-- ==== Sys2Proof/Tests/Slice0.lean ====
section
/-! SUPPORT. Tests by hand from the spec: the well-formedness checks, the decoding of words written
out from 30_encoding.md, single steps with the values of 95_test_vectors.md, and for each statement
with hypotheses a state and operands that meet them. -/

namespace Sys2Proof.Tests

open Sys2Proof Sys2Proof.Machine Sys2Proof.Safety

/-! ### The test parameters of 95_test_vectors.md -/

/-- `OPEN` of the test table. -/
def openDef : Config.CommandDef :=
  ⟨[0xA2, 0x10, 0, 0, 0, 0, 2, 3], [[0xA1, 0, 0, 0, 0, 0, 0, 1], [0xA1, 0, 0, 0, 0, 0, 0, 2]]⟩

/-- `CLOSE` of the test table. -/
def closeDef : Config.CommandDef := ⟨[0xB2, 0, 0, 0, 0, 0, 0, 0], []⟩

/-- The test-only parameter values, with one init sequence. -/
def testCfg : Config.Params where
  sendInterval := 100
  minHold := 5000
  lockPulseDuration := 500
  reminderInterval := 10000
  transitionTimeout := 20000
  queueCap := 4
  txPayloadLen := 8
  nSwitch := 2
  nInit := 1
  commands := [(0x01, openDef), (0x03, closeDef), (0x11, closeDef)]
  modeFactoryDefault := 0

/-- The reset state under the test parameters, in `AUTOMATIC`. -/
def base : State := { State.reset with cfg := testCfg, swLatch := [false, false], mode := 3 }

/-- The state after one instruction; the state itself where it stops. -/
def after (i : Instr) (s : State) : State :=
  match exec i s with
  | .next t => t
  | _ => s

/-- The state after one step with the control loop's record of an operation pending. -/
def stepped (l : List Byte) (s : State) : State :=
  match step { s with pending := [.loop l] } with
  | .next t => t
  | _ => s

/-! ### Well-formedness: each check refuses an ill-formed term -/

theorem test_wf_enqueue_long : WellFormed (.enqueue (List.replicate 128 0)) = false := by
  simp [WellFormed, Config.maxPayload]
theorem test_wf_enqueue_longest : WellFormed (.enqueue (List.replicate 127 0)) = true := by
  simp [WellFormed, Config.maxPayload]
theorem test_wf_rxIdleOther : WellFormed (.rxIdleOther 0x10) = false := by decide
theorem test_wf_rxAwaitStxOther :
    WellFormed (.rxAwaitStxOther 0x10) = false ∧ WellFormed (.rxAwaitStxOther 0x02) = false := by decide
theorem test_wf_rxInFrameData : WellFormed (.rxInFrameData 0x10) = false := by decide
theorem test_wf_rxAfterDleOther :
    WellFormed (.rxAfterDleOther 0x10) = false ∧ WellFormed (.rxAfterDleOther 0x03) = false := by decide
theorem test_wf_tokenInit :
    WellFormed (.tokenInit 0) = false ∧ WellFormed (.tokenInit 0xF0) = false ∧
    WellFormed (.tokenInit 0xEF) = true := by decide

/-! ### Decoding: words written out from R80, R91, R92, R94 and R95 -/

theorem test_decode_hostop_plain :
    decode .hostop [0x00] = .ok (.reset, []) ∧ decode .hostop [0x02] = .ok (.dequeue, []) ∧
    decode .hostop [0x0C] = .ok (.unassignedC, []) ∧ decode .hostop [0x0D] = .ok (.unassignedD, []) ∧
    decode .hostop [0x0E] = .ok (.unassignedE, []) ∧
    decode .hostop [0x0F] = .ok (.unassignedF, []) := by decide

/-- Program E step 2, program A step 1, program B step 1, program C step 9. -/
theorem test_decode_hostop_byte :
    decode .hostop [0x01, 0x10] = .ok (.rxbyte 0x10, []) ∧
    decode .hostop [0x03, 0x01] = .ok (.select 0x01, []) ∧
    decode .hostop [0x07, 0x03] = .ok (.setmode 0x03, []) ∧
    decode .hostop [0x08, 0x00] = .ok (.setlockreq false, []) ∧
    decode .hostop [0x09, 0x01] = .ok (.setlatch 0x01, []) ∧
    decode .hostop [0x0A, 0x01] = .ok (.setdebug true, []) := by decide

/-- Program B steps 2 and 3; `SEQTICK now=1100`; `ENCODE` of one byte. -/
theorem test_decode_hostop_wide :
    decode .hostop [0x06, 0x00, 0x00, 0x03, 0xE8, 0x00] = .ok (.cycle 1000 0, []) ∧
    decode .hostop [0x05, 0x02, 0x01] = .ok (.rawwr 2 true, []) ∧
    decode .hostop [0x04, 0x00, 0x00, 0x04, 0x4C] = .ok (.seqtick 1100, []) ∧
    decode .hostop [0x0B, 0x01, 0x41, 0x00, 0x02] = .ok (.encode [0x41], [0x02]) := by decide

theorem test_decode_hostop_refused :
    decode .hostop [] = .error .truncated ∧ decode .hostop [0x10] = .error .reservedBits ∧
    decode .hostop [0x08, 0x02] = .error .reservedBits ∧
    decode .hostop [0x06, 0, 0, 0, 0, 0x08] = .error .reservedBits := by decide

theorem test_decode_phase :
    decode .phase [0x01] = .ok (.cycleReconcile, []) ∧
    decode .phase [0x02, 0x00, 0x00, 0x1F, 0x72, 0x02] = .ok (.cycleDoorstep 8050 .opened, []) ∧
    decode .phase [0x03, 0x00, 0x00, 0x06, 0x0E] = .ok (.cycleLockstep 1550, []) ∧
    decode .phase [0x04, 0x00, 0x00, 0x03, 0xE8] = .ok (.cycleSeqtick 1000, []) ∧
    decode .phase [0x05] = .error .unknownCode := by decide

theorem test_decode_subop : decode .subop [0x01, 0x41, 0x01, 0x42, 0x00] = .ok (.enqueue [0x41, 0x42], []) := by
  decide

theorem test_decode_wirebyte_start :
    decode (.wirebyte .idle 0) [0x10] = .ok (.rxIdleDle, []) ∧
    decode (.wirebyte .idle 0) [0x41] = .ok (.rxIdleOther 0x41, []) ∧
    decode (.wirebyte .awaitStx 0) [0x02] = .ok (.rxAwaitStxStx, []) ∧
    decode (.wirebyte .awaitStx 0) [0x10] = .ok (.rxAwaitStxDle, []) ∧
    decode (.wirebyte .awaitStx 0) [0x03] = .ok (.rxAwaitStxOther 0x03, []) := by decide

theorem test_decode_wirebyte_frame :
    decode (.wirebyte .inFrame 0) [0x10] = .ok (.rxInFrameDle, []) ∧
    decode (.wirebyte .inFrame 0) [0x03] = .ok (.rxInFrameData 0x03, []) ∧
    decode (.wirebyte .afterDle 0) [0x10] = .ok (.rxAfterDleDle, []) ∧
    decode (.wirebyte .afterDle 0) [0x03] = .ok (.rxAfterDleEtx, []) ∧
    decode (.wirebyte .afterDle 0) [0x02] = .ok (.rxAfterDleOther 0x02, []) ∧
    decode (.wirebyte .awaitChecksum 0x41) [0x41] = .ok (.rxAwaitChecksumGood 0x41, []) ∧
    decode (.wirebyte .awaitChecksum 0x41) [0x40] = .ok (.rxAwaitChecksumBad 0x40, []) := by decide

/-- EN-10, and the same frame with a wrong checksum. -/
theorem test_decode_wireframe :
    decode .wireframe [0x10, 0x02, 0x10, 0x10, 0x03, 0x11, 0x10, 0x03, 0x12]
      = .ok (.frame [0x10, 0x03, 0x11], []) ∧
    decode .wireframe [0x10, 0x02, 0x41, 0x10, 0x03, 0x40] = .error .badFrame := by decide

theorem test_decode_token :
    decode .token [0x01] = .ok (.tokenOpen, []) ∧ decode .token [0x02] = .ok (.tokenOpening, []) ∧
    decode .token [0x03] = .ok (.tokenClose, []) ∧ decode .token [0x04] = .ok (.tokenClosing, []) ∧
    decode .token [0x05] = .ok (.tokenClosed, []) ∧ decode .token [0x11] = .ok (.tokenInit 1, []) ∧
    decode .token [0x00] = .error .unknownCode ∧
    decode .token [0x10] = .error .unknownCode := by decide

/-- The code alone, the operands zeros. -/
theorem test_tableWord :
    decodeTableWord 8 0x6 = some (.cycle 0 0) ∧ decodeTableWord 8 0xB = some (.encode []) ∧
    decodeTableWord 8 0x1F = none := by decide

/-- The last codes of the enumerations (R96, R97). -/
theorem test_codes :
    ctlStateCode .transition = 5 ∧ rxStateCode .awaitChecksum = 4 ∧ positionCode .undefined = 4 ∧
    sensorIndex .radarB = 3 := by decide

/-! ### One step, by 95_test_vectors.md -/

/-- EN-9: the checksum 0x10 is not doubled. -/
theorem test_encode_en9 :
    (after (.encode [0xFF, 0x00, 0x10, 0x7F, 0x80, 0x03, 0x02, 0x11]) base).result =
      .encoded [0x10, 0x02, 0xFF, 0x00, 0x10, 0x10, 0x7F, 0x80, 0x03, 0x02, 0x11, 0x10, 0x03, 0x10] := by
  decide

/-- EN-11, streaming: the payload ends in `DLE`. -/
theorem test_encode_en11 :
    encodeStreaming [0x00, 0x00, 0x00, 0x10]
      = [0x10, 0x02, 0x00, 0x00, 0x00, 0x10, 0x10, 0x10, 0x03, 0x00] := by decide

/-- A decoder in the middle of a frame that holds `[41]`. -/
def inFrame : State := { base with rxState := .inFrame, rxLen := 1, rxCk := 0x41, rxBuf := [(0, 0x41)] }

/-- R124's worked example. -/
theorem test_rxbyte_data :
    let t := stepped [0x01, 0x42] inFrame
    t.rxLen = 2 ∧ t.rxCk = 0x03 ∧ t.rxByte 1 = 0x42 ∧ t.rxState = .inFrame := by decide

/-- DE-7 at its sixth byte: `DLE STX` in a frame is `E_ESC`. -/
theorem test_rxbyte_escape :
    let t := stepped [0x01, 0x02] { inFrame with rxState := .afterDle }
    t.rxState = .idle ∧ t.out = [.diag (.eEsc 0x02)] ∧ t.rxLen = 1 := by decide

/-- R127's worked example, bad and good. -/
theorem test_checksum_rows :
    (after (.rxAwaitChecksumBad 0x40) { inFrame with rxState := .awaitChecksum }).out
      = [.diag (.eCksum 0x40 0x41)] ∧
    (after (.rxAwaitChecksumGood 0x41) { inFrame with rxState := .awaitChecksum }).q = [[0x41]] := by
  decide

/-- The rows of `Idle` and `AwaitStx` (R122, R123). -/
theorem test_start_rows :
    (after .rxIdleDle base).rxState = .awaitStx ∧ (after (.rxIdleOther 0x41) base) = base ∧
    (after .rxAwaitStxStx { inFrame with rxState := .awaitStx }).rxLen = 0 ∧
    (after .rxAwaitStxDle { base with rxState := .awaitStx }).rxState = .awaitStx ∧
    (after (.rxAwaitStxOther 0x41) { base with rxState := .awaitStx }).rxState = .idle := by decide

/-- The rows of `InFrame` and `AfterDle` (R124, R125). -/
theorem test_frame_rows :
    (after .rxInFrameDle inFrame).rxState = .afterDle ∧
    (after (.rxInFrameData 0x10) inFrame) = inFrame ∧
    (after .rxAfterDleDle { inFrame with rxState := .afterDle }).rxByte 1 = 0x10 ∧
    (after .rxAfterDleDle { inFrame with rxState := .afterDle }).rxCk = 0x41 ∧
    (after .rxAfterDleEtx { inFrame with rxState := .afterDle }).rxState = .awaitChecksum ∧
    (after (.rxAfterDleOther 0x41) { inFrame with rxState := .afterDle }).out = [.diag (.eEsc 0x41)] := by
  decide

/-- The 128th byte discards the frame (R126, DE-14). -/
theorem test_oversize :
    let t := after (.rxbyte 0x20) { inFrame with rxLen := 127 }
    t.rxState = .idle ∧ t.rxLen = 128 ∧ t.out = [.diag .eOversize] ∧ t.rxByte 127 = 0x20 := by decide

/-- DE-9: a checksum of 0x10 ends the frame. -/
theorem test_frame_de9 :
    let t := after (.frame [0xFF, 0x00, 0x10, 0x7F, 0x80, 0x03, 0x02, 0x11]) base
    t.q = [[0xFF, 0x00, 0x10, 0x7F, 0x80, 0x03, 0x02, 0x11]] ∧ t.rxState = .idle ∧ t.rxCk = 0x10 := by
  decide

/-- R142's worked example: the oldest entry of a full queue is dropped. -/
theorem test_enqueue_full :
    let t := after (.enqueue [5]) { base with q := [[1], [2], [3], [4]] }
    t.q = [[2], [3], [4], [5]] ∧ t.out = [.diag (.iRxlog [5] 4), .newMsg [5]] := by decide

/-- TQ-3, second frame: announced and not logged. -/
theorem test_enqueue_suppressed :
    let t := after (.enqueue [0x41]) { base with q := [[0x41]], rxlogValid := true, rxlogLast := [0x41] }
    t.q = [[0x41], [0x41]] ∧ t.out = [.newMsg [0x41]] := by decide

/-- R146's worked example, and TQ-2. -/
theorem test_dequeue :
    (stepped [0x02] { base with q := [[2], [3]] }).q = [[3]] ∧
    (stepped [0x02] { base with q := [[2], [3]] }).result = .dequeued (some [2]) ∧
    (stepped [0x02] base).result = .dequeued none := by decide

/-- R156's worked example. -/
theorem test_select :
    let t := stepped [0x03, 0x03]
      { base with seqCmd := 1, seqSelValid := true, seqIdx := 2, seqLastValid := true }
    t.seqCmd = 3 ∧ t.seqIdx = 0 ∧ t.seqLastValid = false ∧ t.result = .selected true := by decide

/-- SQ-3: an unknown token. -/
theorem test_select_unknown :
    stepped [0x03, 0x7F] base = { base with result := .selected false } := by decide

/-- The tokens of R95, those of the table and those not in it. -/
theorem test_tokens :
    (after .tokenOpen base).seqCmd = 0x01 ∧ (after .tokenClose base).seqCmd = 0x03 ∧
    (after (.tokenInit 1) base).seqCmd = 0x11 ∧ (after .tokenOpening base).result = .selected false ∧
    (after .tokenClosing base).result = .selected false ∧
    (after .tokenClosed base).result = .selected false ∧
    (after (.tokenInit 2) base).result = .selected false := by decide

/-- A sequencer with `OPEN` selected, last frame at `0xFFFFFFC0`. -/
def sending : State :=
  { base with seqCmd := 1, seqSelValid := true, seqIdx := 0, seqLastValid := true, seqLast := 0xFFFFFFC0 }

/-- SQ-8: the gate across the wrap of the time; the first prefix is sent. -/
theorem test_seqtick_wrap :
    stepped [0x04, 0, 0, 0, 0x23] sending = sending ∧
    (stepped [0x04, 0, 0, 0, 0x24] sending).out =
      [.tx [0x10, 0x02, 0xA1, 0, 0, 0, 0, 0, 0, 0x01, 0x10, 0x03, 0xA0],
       .diag (.iTxlog [0xA1, 0, 0, 0, 0, 0, 0, 1])] := by decide

/-- Program A step 10: the final payload again, one `0x10` doubled, not logged. -/
theorem test_cycleSeqtick_final :
    let t := after (.cycleSeqtick 1400) { sending with
      seqIdx := 2, seqLast := 1300, txlogValid := true, txlogLast := [0xA2, 0x10, 0, 0, 0, 0, 2, 3] }
    t.out = [.tx [0x10, 0x02, 0xA2, 0x10, 0x10, 0, 0, 0, 0, 0x02, 0x03, 0x10, 0x03, 0xA3]] ∧
    t.seqIdx = 2 ∧ t.seqLast = 1400 := by decide

/-- SD-5 and SD-6. -/
theorem test_rawwr :
    (stepped [0x05, 0x02, 0x01] base).raw = ⟨false, false, true, false⟩ ∧
    (stepped [0x05, 0x02, 0x01] base).stable = SensorFlags.allClear ∧
    stepped [0x05, 0x04, 0x01] base = base := by decide

/-- SD-4: reports in index order. -/
theorem test_reconcile :
    let t := after .cycleReconcile { base with raw := ⟨true, false, false, true⟩ }
    t.stable = ⟨true, false, false, true⟩ ∧
    t.out = [.diag (.iSensor .airA true), .diag (.iSensor .radarB true)] := by decide

/-- DC-3 as one cycle: the open trigger, `SELECT OPEN`, and the first frame in the same step. -/
theorem test_cycle_opens :
    let t := stepped [0x06, 0x00, 0x00, 0x04, 0x4C, 0x00]
      { base with ctlState := .closed, raw := ⟨false, false, true, false⟩ }
    t.ctlState = .transition ∧ t.posAtEntry = .closed ∧ t.triggerRelease = true ∧ t.seqIdx = 1 ∧
    t.posLast = .closed ∧
    t.out = [.diag (.iSensor .radarA true), .diag (.iState .closed .transition),
      .tx [0x10, 0x02, 0xA1, 0, 0, 0, 0, 0, 0, 0x01, 0x10, 0x03, 0xA0],
      .diag (.iTxlog [0xA1, 0, 0, 0, 0, 0, 0, 1])] := by decide

/-- DC-5: the hold time at its boundary. -/
theorem test_doorstep_hold :
    (after (.cycleDoorstep 8049 .opened) { base with ctlState := .opened, doorOpenSince := 3050 }).ctlState
      = .opened ∧
    (after (.cycleDoorstep 8050 .opened) { base with ctlState := .opened, doorOpenSince := 3050 }).seqCmd
      = 0x03 := by decide

/-- DC-9, R200: the timeout at its boundary. -/
theorem test_doorstep_timeout :
    let s := { base with
      ctlState := .transition, posAtEntry := .closed, doorStateLastChanged := 1050 }
    (after (.cycleDoorstep 21049 .closed) s).ctlState = .transition ∧
    (after (.cycleDoorstep 21050 .closed) s).ctlState = .closed := by decide

/-- Program C steps 4 and 8. -/
theorem test_lockstep :
    (after (.cycleLockstep 1050) { base with ctlState := .closed, lockRequested := true }).out
      = [.diag (.iLock true true)] ∧
    (after (.cycleLockstep 1549)
      { base with pulseActive := true, lockRelay := true, pulseStart := 1050 }).lockRelay = true ∧
    (after (.cycleLockstep 1550)
      { base with pulseActive := true, lockRelay := true, pulseStart := 1050 }).lockRelay = false := by
  decide

/-- Program D steps 6 and 7: the reminder. -/
theorem test_lockstep_reminder :
    (after (.cycleLockstep 1100) { base with ctlState := .opened, lockRequested := true }).out
      = [.lockReminder true] ∧
    (after (.cycleLockstep 11099) { base with
      ctlState := .opened, lockRequested := true, reminderValid := true, reminderLast := 1100 }).out
      = [] := by decide

/-- HO-1 to HO-4 and HO-6: the host writes. -/
theorem test_hostwrites :
    (stepped [0x07, 0x09] base).mode = 9 ∧ (stepped [0x08, 0x01] base).lockRequested = true ∧
    (stepped [0x0A, 0x01] base).debugOut = true ∧ (stepped [0x09, 0x01] base).swLatch = [false, true] ∧
    stepped [0x09, 0x02] base = base ∧ stepped [0x0C] base = base ∧ stepped [0x0D] base = base ∧
    stepped [0x0E] base = base ∧ stepped [0x0F] base = base := by decide

/-- HO-5: a position code that names no position. -/
theorem test_cycle_bad_position : stepped [0x06, 0, 0, 0, 0, 0x07] base = base := by decide

/-- RS-1: what is stated is reset, `mode` is kept, nothing is emitted. -/
theorem test_reset :
    let t := stepped [0x00] { inFrame with
      q := [[1]], lockRelay := true, pulseActive := true, ctlState := .opened, debugOut := true }
    t.rxState = .idle ∧ t.q = [] ∧ t.lockRelay = false ∧ t.ctlState = .undefined ∧ t.mode = 3 ∧
    t.swLatch = [false, false] ∧ t.debugOut = false ∧ t.out = [] ∧ t.epoch = 1 := by decide

/-- A placed table word is the first operation after reset. -/
theorem test_placed_first :
    (State.reset.withFetchWord 8 0x2).pending = [.loop [0x02]] ∧
    step (State.reset.withFetchWord 8 0x2) = .next { State.reset with result := .dequeued none } :=
  ⟨rfl, rfl⟩

/-! ### For each statement with hypotheses, a state and operands that meet them -/

/-- `DecodeOfEncode`: a token of the highest code, the bad row of the checksum test. -/
theorem test_meets_DecodeOfEncode :
    (WellFormed (.tokenInit 0xEF) = true ∧ inSpace (.tokenInit 0xEF) .token = true) ∧
    (WellFormed (.rxAwaitChecksumBad 0x40) = true ∧
      inSpace (.rxAwaitChecksumBad 0x40) (.wirebyte .awaitChecksum 0x41) = true) := by decide

/-- `HostDecodingExact`: a record with bytes after it. -/
theorem test_meets_HostDecodingExact :
    decode .hostop [0x05, 0x02, 0x01, 0x07] = .ok (.rawwr 2 true, [0x07]) := by decide

/-- `StepRunsDecoded`: a record of the control loop, and a move of a handler. -/
theorem test_meets_StepRunsDecoded :
    { base with pending := [.loop [0x07, 0x02], .edge .airA true] }.pending
      = .loop [0x07, 0x02] :: [.edge .airA true] ∧
    decode .hostop [0x07, 0x02] = .ok (.setmode 2, []) ∧
    { base with pending := [.edge .radarB true] }.pending = .edge .radarB true :: [] := by decide

/-- `StepWithoutOperation`: nothing pending, a record cut short, and one with a byte too many. -/
theorem test_meets_StepWithoutOperation :
    base.pending = [] ∧
    { base with pending := [.loop [0x01]] }.pending = .loop [0x01] :: [] ∧
    decode .hostop [0x01] = .error .truncated ∧
    decode .hostop [0x07, 0x02, 0x00] = .ok (.setmode 2, [0x00]) := by decide

/-- A placed `RAWWR` is the move of its sensor's handler; one of an index without a sensor has no
handler and is no operation (SD-6). -/
theorem test_placed_rawwr :
    (State.reset.withFetchWord 24 0x010205).pending = [.edge .radarA true] ∧
    (State.reset.withFetchWord 24 0x010405).pending = [.loop [0x05, 0x04, 0x01]] ∧
    step (State.reset.withFetchWord 24 0x010405) = .next State.reset := ⟨rfl, rfl, rfl⟩

/-- R267: the handler of `RADAR_A` may issue `RAWWR` on index 2 and nothing else. -/
theorem test_mayIssue :
    mayIssue (.edgeHandler .radarA) (.rawwr 2 true) = true ∧
    mayIssue (.edgeHandler .radarA) (.rawwr 1 true) = false ∧
    mayIssue (.edgeHandler .radarA) (.select 1) = false ∧
    mayIssue .controlLoop (.rawwr 2 true) = false ∧ mayIssue .controlLoop .reset = true := by decide

/-- `RawwrRule`: a move of a handler, with a record of the control loop after it. -/
theorem test_meets_RawwrRule :
    { base with pending := [.edge .airB true, .loop [0x00]] }.pending
      = .edge .airB true :: [.loop [0x00]] := by decide

/-- `PlacedWordRuns`. -/
theorem test_meets_PlacedWordRuns : decodeTableWord 16 0x0307 = some (.setmode 3) := by decide

/-- `FrameRoundTrip`: the longest payload, and the empty one. -/
theorem test_meets_FrameRoundTrip :
    base.rxState = .idle ∧ (List.replicate 127 (0x20 : Byte)).length ≤ 127 ∧
    ([] : Payload).length ≤ 127 := by simp [base, State.reset]

/-- `LongFrameRaisesOversize`: the shortest payload that is too long. -/
theorem test_meets_LongFrameRaisesOversize :
    base.rxState = .idle ∧ 128 ≤ (List.replicate 128 (0x20 : Byte)).length := by
  simp [base, State.reset]

/-- `ChangedByteRejected`: bit 0 of the second byte of EN-6's payload flipped. -/
theorem test_meets_ChangedByteRejected :
    base.rxState = .idle ∧ ([1, 2, 3] : Payload).length ≤ 127 ∧
    stuff [1, 2, 3] = [1] ++ 2 :: [3] ∧ (2 : Byte) ≠ 0x10 ∧ (3 : Byte) ≠ 0x10 ∧ (3 : Byte) ≠ 2 := by
  decide

/-- `RxIdleRule` and `RxAwaitStxRule`: the states, and other bytes next to the special ones. -/
theorem test_meets_RxStartRules :
    base.rxState = .idle ∧ (0x0F : Byte) ≠ 0x10 ∧
    { base with rxState := .awaitStx }.rxState = .awaitStx ∧ (0x03 : Byte) ≠ 0x02 ∧
    (0x03 : Byte) ≠ 0x10 := by decide

/-- `RxInFrameRule`: the last index that keeps the frame, and the one that discards it. -/
theorem test_meets_RxInFrameRule :
    inFrame.rxState = .inFrame ∧ (0x02 : Byte) ≠ 0x10 ∧ { inFrame with rxLen := 126 }.rxLen ≤ 127 ∧
    { inFrame with rxLen := 127 }.rxLen ≤ 127 ∧ { inFrame with rxLen := 127 }.rxLen + 1 = 128 := by
  decide

/-- `RxAfterDleRule`: both sides of the oversize test, and a byte that is neither `DLE` nor `ETX`. -/
theorem test_meets_RxAfterDleRule :
    { inFrame with rxState := .afterDle, rxLen := 127 }.rxState = .afterDle ∧
    { inFrame with rxState := .afterDle, rxLen := 127 }.rxLen ≤ 127 ∧
    { inFrame with rxState := .afterDle }.rxLen ≤ 127 ∧ (0x02 : Byte) ≠ 0x10 ∧ (0x02 : Byte) ≠ 0x03 := by
  decide

/-- `RxAwaitChecksumRule`: the state, and a byte that differs from `rx_ck` in one bit. -/
theorem test_meets_RxAwaitChecksumRule :
    { inFrame with rxState := .awaitChecksum }.rxState = .awaitChecksum ∧
    (0x40 : Byte) ≠ { inFrame with rxState := .awaitChecksum }.rxCk := by decide

/-- `RowsElsewhereDoNothing`: a row of `Idle` met in `InFrame`. -/
theorem test_meets_RowsElsewhereDoNothing :
    inSpace .rxIdleDle (.wirebyte .idle 0) = true ∧ encode .rxIdleDle = [0x10] ∧
    classify inFrame.rxState inFrame.rxCk 0x10 ≠ .rxIdleDle := by decide

/-- `DecoderTotal`: the invariant in the middle of a frame. -/
theorem test_meets_DecoderTotal : DecoderInv inFrame :=
  ⟨by decide, by decide, by decide, by decide, by decide⟩

/-- `RxFaultsOnlyPastBuffer`: both clauses of what faults, and the last index that does not. -/
theorem test_meets_RxFaultsOnlyPastBuffer :
    exec (.rxbyte 0x41) { inFrame with rxLen := 128 } = .fault (.rxBufIndex 128) ∧
    exec (.rxbyte 0x10) { inFrame with rxLen := 128, rxState := .afterDle }
      = .fault (.rxBufIndex 128) ∧
    exec (.rxbyte 0x41) { inFrame with rxLen := 127 } ≠ .fault (.rxBufIndex 127) :=
  ⟨rfl, rfl, fun h => by cases h⟩

/-- `DequeueRule`: an empty queue, and one with an entry. -/
theorem test_meets_DequeueRule : base.q = [] ∧ { base with q := [[2], [3]] }.q = [2] :: [[3]] := by
  decide

/-- `QueueKeepsNewest`: the default capacity, and the least. -/
theorem test_meets_QueueKeepsNewest :
    base.q = [] ∧ 1 ≤ base.cfg.queueCap ∧
    1 ≤ { base with cfg := { testCfg with queueCap := 1 } }.cfg.queueCap := by decide

/-- `SelectRule`, a key of the table. -/
theorem test_meets_SelectRule_known : commandOf base.cfg 0x01 = some openDef := by decide

/-- `SelectRule`: a token with no key, and the codes at the ends of the unknown ranges. -/
theorem test_meets_SelectRule_unknown :
    commandOf base.cfg 0x02 = none ∧ (0 : Byte).toNat = 0 ∧
    (5 < (6 : Byte).toNat ∧ (6 : Byte).toNat < 0x11) ∧
    (5 < (0x10 : Byte).toNat ∧ (0x10 : Byte).toNat < 0x11) ∧
    0x10 + base.cfg.nInit < (0x12 : Byte).toNat := by decide

/-- `TokensSelect`: a token with a key and one without, an init token at each end. -/
theorem test_meets_TokensSelect :
    commandOf base.cfg 0x03 = some closeDef ∧ commandOf base.cfg 0x04 = none ∧
    commandOf base.cfg (0x10 + 1) = some closeDef ∧ (1 ≤ (1 : Byte).toNat ∧ (1 : Byte).toNat ≤ 0xEF) ∧
    commandOf base.cfg (0x10 + 0xEF) = none ∧ (0xEF : Byte).toNat ≤ 0xEF := by decide

/-- `SeqtickRule`, silent: nothing selected, and the gate one unit before it opens. -/
theorem test_meets_SeqtickRule_silent :
    base.seqSelValid = false ∧ sending.seqLastValid = true ∧
    (0x23 : Time) - sending.seqLast < sending.cfg.sendInterval := by decide

/-- `SeqtickRule`, sending: the gate as it opens, with a prefix left and with none. -/
theorem test_meets_SeqtickRule_sends :
    sending.seqSelValid = true ∧ sending.cfg.sendInterval ≤ (0x24 : Time) - sending.seqLast ∧
    commandOf sending.cfg sending.seqCmd = some openDef ∧ sending.seqIdx < openDef.prefixes.length ∧
    { sending with seqLastValid := false }.seqLastValid = false ∧
    openDef.prefixes.length ≤ { sending with seqIdx := 2 }.seqIdx := by decide

/-- `PrefixesOnceThenFinal`: four ticks exactly the interval apart. -/
theorem test_meets_PrefixesOnceThenFinal :
    commandOf base.cfg 0x01 = some openDef ∧
    ∀ (k : Nat) (h : k + 1 < ([1000, 1100, 1200, 1300] : List Time).length),
      base.cfg.sendInterval ≤
        ([1000, 1100, 1200, 1300] : List Time)[k + 1] - ([1000, 1100, 1200, 1300] : List Time)[k] := by
  refine ⟨by decide, fun k h => ?_⟩
  match k, h with
  | 0, _ => exact show (100 : Time) ≤ 1100 - 1000 by decide
  | 1, _ => exact show (100 : Time) ≤ 1200 - 1100 by decide
  | 2, _ => exact show (100 : Time) ≤ 1300 - 1200 by decide
  | k + 3, h => simp at h; omega

/-- `DoorInert`: the modes on each side of the two that act. -/
theorem test_meets_DoorInert :
    ({ base with mode := 1 }.mode ≠ 2 ∧ { base with mode := 1 }.mode ≠ 3) ∧
    ({ base with mode := 4 }.mode ≠ 2 ∧ { base with mode := 4 }.mode ≠ 3) := by decide

/-- The arms of the door machine in both modes: `DoorUndefinedArm`, `DoorOpenStartArm`,
`DoorTransitionArm`, `DoorClosedLockedArm`, `DoorLockCheck`. -/
theorem test_meets_DoorArms :
    base.mode = 3 ∧ { base with mode := 2 }.mode = 2 ∧ base.ctlState = .undefined ∧
    { base with ctlState := .openStart }.ctlState = .openStart ∧
    { base with ctlState := .transition }.ctlState = .transition ∧
    { base with ctlState := .closedLocked }.ctlState = .closedLocked ∧
    ({ base with ctlState := .closed, lockActive := true }.ctlState = .closed ∧
      { base with ctlState := .closed, lockActive := true }.lockActive = true) := by decide

/-- `DoorContradiction`, and the same branch of `DoorClosedLockedArm`: each of the three states with a
position that contradicts it. -/
theorem test_meets_DoorContradiction :
    base.mode = 3 ∧
    ({ base with ctlState := .opened }.ctlState = .opened ∧ Position.closing ≠ .opened) ∧
    ({ base with ctlState := .closed }.ctlState = .closed ∧ Position.opening ≠ .closed) ∧
    ({ base with ctlState := .closedLocked }.ctlState = .closedLocked ∧ Position.opened ≠ .closed) := by
  decide

/-- `DoorReleaseTrigger` in `AUTOMATIC` at the hold time's boundary: true at 8050, false at 8049. -/
theorem test_meets_DoorReleaseTrigger_automatic :
    let s := { base with ctlState := .opened, doorOpenSince := 3050 }
    s.ctlState = .opened ∧ s.mode = 3 ∧
    (True ↔ (∀ x : Sensor, s.stable.get x = false) ∧ s.cfg.minHold ≤ (8050 : Time) - s.doorOpenSince) ∧
    (False ↔ (∀ x : Sensor, s.stable.get x = false) ∧
      s.cfg.minHold ≤ (8049 : Time) - s.doorOpenSince) := by
  refine ⟨rfl, rfl, ⟨fun _ => ⟨fun x => by cases x <;> rfl, by decide⟩, fun _ => trivial⟩,
    ⟨False.elim, fun h => absurd h.2 (by decide)⟩⟩

/-- `DoorReleaseTrigger` in `MANUAL`, with a latch set. -/
theorem test_meets_DoorReleaseTrigger_manual :
    let s := { base with ctlState := .opened, mode := 2, swLatch := [false, true] }
    s.ctlState = .opened ∧ s.mode = 2 ∧
    (s.stable.get .airA = false ∧ s.stable.get .airB = false ∧ true ∈ s.swLatch) := by decide

/-- `DoorOpenTrigger` in both modes, true and false. -/
theorem test_meets_DoorOpenTrigger :
    let s := { base with ctlState := .closed, stable := ⟨true, true, false, false⟩ }
    let r := { base with ctlState := .closed, stable := ⟨false, false, false, true⟩ }
    let m := { base with ctlState := .closed, mode := 2, swLatch := [false, true] }
    (s.ctlState = .closed ∧ s.lockActive = false ∧ s.mode = 3 ∧
      ¬ (s.stable.get .radarA = true ∨ s.stable.get .radarB = true)) ∧
    (r.stable.get .radarA = true ∨ r.stable.get .radarB = true) ∧
    (m.ctlState = .closed ∧ m.lockActive = false ∧ m.mode = 2 ∧ true ∈ m.swLatch) := by decide

/-- `LockedDoorNeverOpened`: a door believed locked in `OPEN`, whose step answers a next state. -/
theorem test_meets_LockedDoorNeverOpened :
    let s := { base with ctlState := .opened, lockActive := true, doorOpenSince := 3050 }
    s.lockActive = true ∧
    exec (.cycleDoorstep 8050 .opened) s = .next (after (.cycleDoorstep 8050 .opened) s) :=
  ⟨rfl, rfl⟩

/-- `OutOfRangeOperands` and `CycleIsItsPhases`: the least operands out of range. -/
theorem test_meets_OutOfRangeOperands :
    4 < (5 : BitVec 3).toNat ∧ 3 < (4 : Byte).toNat ∧ base.cfg.nSwitch ≤ (2 : Byte).toNat := by decide

/-- `LockPulseRule`, `LockHonourRule` and `LockReminderRule`: the four situations of the lock step. -/
theorem test_meets_LockRules :
    { base with pulseActive := true }.pulseActive = true ∧ base.pulseActive = false ∧
    ({ base with ctlState := .closedLocked, lockActive := true }.lockRequested
        ≠ { base with ctlState := .closedLocked, lockActive := true }.lockActive ∧
      { base with ctlState := .closedLocked, lockActive := true }.ctlState = .closedLocked) ∧
    ({ base with lockRequested := true }.lockRequested ≠ { base with lockRequested := true }.lockActive ∧
      { base with lockRequested := true }.ctlState ≠ .closed ∧
      { base with lockRequested := true }.ctlState ≠ .closedLocked) ∧
    base.lockRequested = base.lockActive := by decide

/-- `PulseStartsOnlyClosed`: a cycle that reaches `CLOSED` with a request pending. -/
theorem test_meets_PulseStartsOnlyClosed :
    let s := { base with lockRequested := true }
    exec (.cycle 15000 0) s = .next (after (.cycle 15000 0) s) ∧ s.pulseActive = false ∧
    (after (.cycle 15000 0) s).pulseActive = true := ⟨rfl, rfl, rfl⟩

/-- `HostWriteRules`: the last latch. -/
theorem test_meets_HostWriteRules :
    (1 : Byte).toNat < base.cfg.nSwitch ∧ base.swLatch.length = base.cfg.nSwitch := by decide

/-- The invariant of the block in the middle of a frame, a command selected, the door in
`TRANSITION`. -/
theorem test_inv_busy :
    Inv { inFrame with
      seqSelValid := true, seqCmd := 0x01, seqIdx := 2, ctlState := .transition,
      posAtEntry := .closed, q := [[1]], pending := [.loop [0x01, 0x42]] } :=
  ⟨⟨by decide, by decide, by decide, by decide, by decide⟩,
    ⟨by decide, by decide, by decide, by decide⟩, fun _ => ⟨openDef, by decide, by decide⟩,
    rfl, fun _ => .inr rfl, rfl⟩

/-- `InvariantKeptByStep`, `OutputsAreNeverRead`, `DebugFlagOnlyLogs`: a step that answers a next
state. -/
theorem test_meets_step_statements :
    step { inFrame with pending := [.loop [0x01, 0x42]] } = .next (stepped [0x01, 0x42] inFrame) := rfl

/-- `WriterDiscipline`: a host operation and each phase of `CYCLE` answered by a next state. -/
theorem test_meets_WriterDiscipline :
    inSpace (.cycle 1000 0) .hostop = true ∧
    exec (.cycle 1000 0) base = .next (after (.cycle 1000 0) base) ∧
    exec .cycleReconcile base = .next (after .cycleReconcile base) ∧
    exec (.cycleDoorstep 5 .closed) base = .next (after (.cycleDoorstep 5 .closed) base) ∧
    exec (.cycleLockstep 5) base = .next (after (.cycleLockstep 5) base) ∧
    exec (.cycleSeqtick 5) base = .next (after (.cycleSeqtick 5) base) :=
  ⟨rfl, rfl, rfl, rfl, rfl, rfl⟩

end Sys2Proof.Tests
end

/-! The checksum (R83): the stuffed region's XOR is the XOR of the payload bytes that are not `DLE`. -/

namespace Sys2Proof

open Sys2Proof.Safety

theorem plainXor_dle_cons (p : Payload) : plainXor (Config.dle :: p) = plainXor p := by
  rw [plainXor, plainXor, List.filter_cons_of_neg (by simp)]

theorem plainXor_cons_of_ne {b : Byte} (p : Payload) (h : b ≠ Config.dle) :
    plainXor (b :: p) = b ^^^ plainXor p := by
  rw [plainXor, plainXor, List.filter_cons_of_pos (by simpa using h), xorBytes_cons]

/-- The two bytes of a doubled `DLE` cancel (R83). -/
theorem checksum_dle_cons (p : Payload) : checksum (Config.dle :: p) = checksum p := by
  rw [checksum, checksum, stuff_dle, xorBytes_cons, xorBytes_cons, ← BitVec.xor_assoc,
    BitVec.xor_self, BitVec.zero_xor]

theorem checksum_cons_of_ne {b : Byte} (p : Payload) (h : b ≠ Config.dle) :
    checksum (b :: p) = b ^^^ checksum p := by
  rw [checksum, checksum, stuff_of_ne b p h, xorBytes_cons]

/-- The two forms of R83 agree, byte by byte: a `DLE` changes neither, any other byte both alike. -/
theorem checksum_eq_plainXor (p : Payload) : checksum p = plainXor p := by
  induction p with
  | nil => rfl
  | cons b r ih =>
    by_cases h : b = Config.dle
    · rw [h, checksum_dle_cons, plainXor_dle_cons, ih]
    · rw [checksum_cons_of_ne r h, plainXor_cons_of_ne r h, ih]

/-- Settles O10: the first form is the definition, the second is `checksum_eq_plainXor`. -/
theorem checksumSkipsDle : Obligations.ChecksumSkipsDle :=
  ⟨fun p => ⟨rfl, checksum_eq_plainXor p⟩, rfl⟩

end Sys2Proof

/-! The frame encoder (R110, R111): the result of `ENCODE`, and the streaming form that agrees with it. -/

namespace Sys2Proof.Machine

/-! ### The streaming form (R111) -/

theorem streamByte_dle (out : List Byte) (ck : Byte) :
    streamByte (out, ck) Config.dle = (out ++ [Config.dle, Config.dle], ck) := by
  rw [streamByte, if_pos rfl, xor_dle_twice]

theorem streamByte_of_ne {b : Byte} (out : List Byte) (ck : Byte) (h : b ≠ Config.dle) :
    streamByte (out, ck) b = (out ++ [b], ck ^^^ b) := by
  rw [streamByte, if_neg h]

/-- The loop invariant of R111, from any output and any accumulator: the loop has appended the stuffed
bytes and XORed in their checksum. -/
theorem foldl_streamByte (p : Payload) (out : List Byte) (ck : Byte) :
    p.foldl streamByte (out, ck) = (out ++ stuff p, ck ^^^ checksum p) := by
  induction p generalizing out ck with
  | nil => simp [stuff, checksum, xorBytes]
  | cons b r ih =>
    rw [List.foldl_cons]
    by_cases h : b = Config.dle
    · subst h
      rw [streamByte_dle, ih, stuff_dle, checksum_dle_cons]
      simp
    · rw [streamByte_of_ne out ck h, ih, stuff_of_ne b r h, checksum_cons_of_ne r h]
      simp [BitVec.xor_assoc]

/-- Settles O8: the loop invariant at the loop's start, with the start delimiter out and the
accumulator zero. -/
theorem streamingEncoderAgrees : Obligations.StreamingEncoderAgrees := by
  intro p
  simp [encodeStreaming, foldl_streamByte, frameOf]

/-! ### The result of `ENCODE` (R110) -/

theorem exec_encode (p : Payload) (s : State) :
    exec (.encode p) s = .next { s with result := .encoded (frameOf p) } := rfl

/-- The worked example of R110. -/
theorem frameOf_one_to_eight :
    frameOf [1, 2, 3, 4, 5, 6, 7, 8]
      = [0x10, 0x02, 1, 2, 3, 4, 5, 6, 7, 8, 0x10, 0x03, 0x08] := by decide

/-- Settles O7: `exec_encode` and the worked example's frame; the other clauses are the equations of
`stuff`, of `xorBytes` and of the operation's code. -/
theorem encodeReturnsFrame : Obligations.EncodeReturnsFrame := by
  refine ⟨exec_encode, rfl, fun _ _ => rfl, fun _ => rfl, fun s => ?_, fun _ => rfl⟩
  rw [exec_encode, frameOf_one_to_eight]

end Sys2Proof.Machine

/-! The frame decoder, one received byte at a time (R120 to R128): a byte takes one row of the byte
map, and each row has one effect. -/

namespace Sys2Proof.Machine

/-! ### The row a byte takes (R91, R120) -/

theorem receiveByte_idle (b : Byte) {s : State} (hs : s.rxState = .idle) :
    receiveByte b s = .next (rxIdle b s) := by rw [receiveByte, hs]

theorem receiveByte_awaitStx (b : Byte) {s : State} (hs : s.rxState = .awaitStx) :
    receiveByte b s = .next (rxAwaitStx b s) := by rw [receiveByte, hs]

theorem receiveByte_inFrame (b : Byte) {s : State} (hs : s.rxState = .inFrame) :
    receiveByte b s = rxInFrame b s := by rw [receiveByte, hs]

theorem receiveByte_afterDle (b : Byte) {s : State} (hs : s.rxState = .afterDle) :
    receiveByte b s = rxAfterDle b s := by rw [receiveByte, hs]

theorem receiveByte_awaitChecksum (b : Byte) {s : State} (hs : s.rxState = .awaitChecksum) :
    receiveByte b s = .next (rxAwaitChecksum b s) := by rw [receiveByte, hs]

/-- The shape of every step below: the byte takes `row`, the meaning of `row` answers `o` where the
row is taken (log entry 10), and the rule of the decoder's state answers `o` too. -/
theorem rxbyte_and_row {row : Instr} {b : Byte} {s : State} {o : Host.Outcome State Fault Refusal}
    (taken : classify s.rxState s.rxCk b = row)
    (meaning : exec row s = atRow row b (fun _ => o) s) (rule : receiveByte b s = o) :
    exec (.rxbyte b) s = o ∧ exec row s = o :=
  ⟨rule, meaning.trans (if_pos taken)⟩

/-! ### State `Idle` (R122) -/

theorem rxIdleDle_step {s : State} (hs : s.rxState = .idle) :
    exec (.rxbyte 0x10) s = .next { s with rxState := .awaitStx } ∧
    exec .rxIdleDle s = .next { s with rxState := .awaitStx } :=
  rxbyte_and_row (by rw [hs]; rfl) rfl (receiveByte_idle _ hs)

theorem rxIdleOther_step {b : Byte} {s : State} (hs : s.rxState = .idle) (hb : b ≠ 0x10) :
    exec (.rxbyte b) s = .next s ∧ exec (.rxIdleOther b) s = .next s := by
  have stays : { s with rxState := .idle } = s := by rw [← hs]
  have rule : receiveByte b s = .next { s with rxState := .idle } := by
    rw [receiveByte_idle b hs, rxIdle, if_neg hb, stays]
  have both := rxbyte_and_row (row := .rxIdleOther b) (by rw [hs]; exact if_neg hb) rfl rule
  rwa [stays] at both

/-- Settles O14, row by row. -/
theorem rxIdleRule : Obligations.RxIdleRule := by
  intro s hs
  obtain ⟨byte, row⟩ := rxIdleDle_step hs
  exact ⟨byte, row, fun _ hb => rxIdleOther_step hs hb⟩

/-! ### State `AwaitStx` (R123) -/

theorem rxAwaitStxStx_step {s : State} (hs : s.rxState = .awaitStx) :
    exec (.rxbyte 0x02) s = .next { s with rxState := .inFrame, rxLen := 0, rxCk := 0x00 } ∧
    exec .rxAwaitStxStx s = .next { s with rxState := .inFrame, rxLen := 0, rxCk := 0x00 } :=
  rxbyte_and_row (by rw [hs]; rfl) rfl (receiveByte_awaitStx _ hs)

theorem rxAwaitStxDle_step {s : State} (hs : s.rxState = .awaitStx) :
    exec (.rxbyte 0x10) s = .next s ∧ exec .rxAwaitStxDle s = .next s := by
  have stays : { s with rxState := .awaitStx } = s := by rw [← hs]
  have rule : receiveByte 0x10 s = .next { s with rxState := .awaitStx } := by
    rw [receiveByte_awaitStx _ hs, stays]; rfl
  have both := rxbyte_and_row (row := .rxAwaitStxDle) (by rw [hs]; rfl) rfl rule
  rwa [stays] at both

theorem rxAwaitStxOther_step {b : Byte} {s : State} (hs : s.rxState = .awaitStx)
    (hstx : b ≠ 0x02) (hdle : b ≠ 0x10) :
    exec (.rxbyte b) s = .next { s with rxState := .idle } ∧
    exec (.rxAwaitStxOther b) s = .next { s with rxState := .idle } :=
  rxbyte_and_row (by rw [hs]; exact (if_neg hstx).trans (if_neg hdle)) rfl
    (by rw [receiveByte_awaitStx b hs, rxAwaitStx, if_neg hstx, if_neg hdle])

/-- Settles O15, row by row. -/
theorem rxAwaitStxRule : Obligations.RxAwaitStxRule := by
  intro s hs
  obtain ⟨stxByte, stxRow⟩ := rxAwaitStxStx_step hs
  obtain ⟨dleByte, dleRow⟩ := rxAwaitStxDle_step hs
  exact ⟨stxByte, stxRow, dleByte, dleRow, fun _ hstx hdle => rxAwaitStxOther_step hs hstx hdle⟩

/-! ### `Append` (R126) -/

/-- `t` is `s` with `v` appended to `rx_buf`: stored at `rx_len` and nowhere else, counted, and the
frame discarded where `v` is the 128th byte. -/
structure Appended (v : Byte) (s t : State) : Prop where
  len : t.rxLen = s.rxLen + 1
  stored : t.rxByte s.rxLen = v
  kept : ∀ a : Nat, a ≠ s.rxLen → t.rxByte a = s.rxByte a
  guard : if s.rxLen + 1 = 128 then t.rxState = .idle ∧ t.out = s.out ++ [.diag .eOversize]
    else t.rxState = s.rxState ∧ t.out = s.out
  frame : t = { s with
    rxLen := t.rxLen, rxBuf := t.rxBuf, rxState := t.rxState, out := t.out }

/-- With room in the buffer, `Append` is answered by the state with the byte appended. -/
theorem appendByte_appended (v : Byte) {s : State} (room : s.rxLen ≤ 127) :
    ∃ t : State, appendByte v s = .next t ∧ Appended v s t := by
  have size : Config.maxPayload = 128 := rfl
  rcases appendByte_cases v s with ⟨hlen, e⟩ | ⟨hlen, e⟩ | ⟨hlen, _⟩
  case inl =>
    have below : s.rxLen + 1 ≠ 128 := by omega
    exact ⟨_, e, ⟨rfl, by simp [State.rxByte], fun a ha => by simp [State.rxByte, ha],
      by simp [below], rfl⟩⟩
  case inr.inl =>
    exact ⟨_, e, ⟨rfl, by simp [State.rxByte], fun a ha => by simp [State.rxByte, ha],
      by simp [hlen], rfl⟩⟩
  case inr.inr => omega

/-! ### State `InFrame` (R124) -/

theorem rxInFrameDle_step {s : State} (hs : s.rxState = .inFrame) :
    exec (.rxbyte 0x10) s = .next { s with rxState := .afterDle } ∧
    exec .rxInFrameDle s = .next { s with rxState := .afterDle } :=
  rxbyte_and_row (by rw [hs]; rfl) rfl (receiveByte_inFrame _ hs)

theorem rxInFrameData_step {b : Byte} {s : State} (hs : s.rxState = .inFrame) (hb : b ≠ 0x10) :
    exec (.rxbyte b) s = appendByte b { s with rxCk := s.rxCk ^^^ b } ∧
    exec (.rxInFrameData b) s = appendByte b { s with rxCk := s.rxCk ^^^ b } :=
  rxbyte_and_row (by rw [hs]; exact if_neg hb) rfl
    (by rw [receiveByte_inFrame b hs, rxInFrame, if_neg hb])

/-- Settles O16: a data byte is appended to the state whose checksum has taken it in. -/
theorem rxInFrameRule : Obligations.RxInFrameRule := by
  intro s hs
  obtain ⟨dleByte, dleRow⟩ := rxInFrameDle_step hs
  refine ⟨dleByte, dleRow, fun b hb room => ?_⟩
  obtain ⟨byte, row⟩ := rxInFrameData_step hs hb
  obtain ⟨t, ht, app⟩ := appendByte_appended b (s := { s with rxCk := s.rxCk ^^^ b }) room
  have ck : t.rxCk = s.rxCk ^^^ b := by rw [app.frame]
  have frame : t = { s with
      rxCk := t.rxCk, rxLen := t.rxLen, rxBuf := t.rxBuf, rxState := t.rxState, out := t.out } := by
    rw [ck]; exact app.frame
  have guard := app.guard
  simp only [hs] at guard
  exact ⟨t, byte.trans ht, row.trans ht, ck, app.len, app.stored, app.kept, guard, frame⟩

/-! ### State `AfterDle` (R125) -/

theorem rxAfterDleDle_step {s : State} (hs : s.rxState = .afterDle) :
    exec (.rxbyte 0x10) s = appendByte 0x10 { s with rxState := .inFrame } ∧
    exec .rxAfterDleDle s = appendByte 0x10 { s with rxState := .inFrame } :=
  rxbyte_and_row (by rw [hs]; rfl) rfl
    (by rw [receiveByte_afterDle _ hs, rxAfterDle, if_pos rfl, xor_dle_twice])

theorem rxAfterDleEtx_step {s : State} (hs : s.rxState = .afterDle) :
    exec (.rxbyte 0x03) s = .next { s with rxState := .awaitChecksum } ∧
    exec .rxAfterDleEtx s = .next { s with rxState := .awaitChecksum } :=
  rxbyte_and_row (by rw [hs]; rfl) rfl (receiveByte_afterDle _ hs)

theorem rxAfterDleOther_step {b : Byte} {s : State} (hs : s.rxState = .afterDle)
    (hdle : b ≠ 0x10) (hetx : b ≠ 0x03) :
    exec (.rxbyte b) s
      = .next { s with rxState := .idle, out := s.out ++ [.diag (.eEsc b)] } ∧
    exec (.rxAfterDleOther b) s
      = .next { s with rxState := .idle, out := s.out ++ [.diag (.eEsc b)] } :=
  rxbyte_and_row (by rw [hs]; exact (if_neg hdle).trans (if_neg hetx)) rfl
    (by rw [receiveByte_afterDle b hs, rxAfterDle, if_neg hdle, if_neg hetx]; rfl)

/-- Settles O17: an escaped `DLE` is appended to the state back in `InFrame`, its checksum unchanged
because XORing `DLE` in twice cancels. -/
theorem rxAfterDleRule : Obligations.RxAfterDleRule := by
  intro s hs
  obtain ⟨etxByte, etxRow⟩ := rxAfterDleEtx_step hs
  refine ⟨fun room => ?_, etxByte, etxRow, fun b hdle hetx => rxAfterDleOther_step hs hdle hetx⟩
  obtain ⟨byte, row⟩ := rxAfterDleDle_step hs
  obtain ⟨t, ht, app⟩ := appendByte_appended 0x10 (s := { s with rxState := .inFrame }) room
  have ck : t.rxCk = (s.rxCk ^^^ 0x10) ^^^ 0x10 := by rw [app.frame, xor_dle_twice]
  exact ⟨t, byte.trans ht, row.trans ht, ck, app.len, app.stored, app.kept, app.guard, app.frame⟩

/-! ### State `AwaitChecksum` (R127) -/

theorem rxAwaitChecksumGood_step {s : State} (hs : s.rxState = .awaitChecksum) :
    exec (.rxbyte s.rxCk) s = .next { enqueue s.rxPayload s with rxState := .idle } ∧
    exec (.rxAwaitChecksumGood s.rxCk) s
      = .next { enqueue s.rxPayload s with rxState := .idle } :=
  rxbyte_and_row (by rw [hs]; exact if_pos rfl) rfl
    (by rw [receiveByte_awaitChecksum _ hs, rxAwaitChecksum, if_pos rfl])

theorem rxAwaitChecksumBad_step {b : Byte} {s : State} (hs : s.rxState = .awaitChecksum)
    (hb : b ≠ s.rxCk) :
    exec (.rxbyte b) s
      = .next { s with rxState := .idle, out := s.out ++ [.diag (.eCksum b s.rxCk)] } ∧
    exec (.rxAwaitChecksumBad b) s
      = .next { s with rxState := .idle, out := s.out ++ [.diag (.eCksum b s.rxCk)] } :=
  rxbyte_and_row (by rw [hs]; exact if_neg hb) rfl
    (by rw [receiveByte_awaitChecksum b hs, rxAwaitChecksum, if_neg hb]; rfl)

/-- Settles O18: the payload a good byte enqueues is `rxPayload`, the collected bytes. -/
theorem rxAwaitChecksumRule : Obligations.RxAwaitChecksumRule := by
  intro s hs
  exact ⟨⟨enqueue s.rxPayload s, rfl, rxAwaitChecksumGood_step hs⟩,
    fun _ hb => rxAwaitChecksumBad_step hs hb⟩

end Sys2Proof.Machine

/-! The transport queue (R142, R145, R146): `ENQUEUE` and `DEQUEUE`. -/

namespace Sys2Proof.Machine

open Sys2Proof.Safety

/-! ### `ENQUEUE` (R142, R145) -/

theorem exec_enqueue (p : Payload) (s : State) : exec (.enqueue p) s = .next (enqueue p s) := rfl

/-- Logged or not, an enqueue announces its payload exactly once (R144, R145). -/
theorem enqueue_newMsgs (p : Payload) (s : State) :
    (enqueue p s).out.filter isNewMsg = s.out.filter isNewMsg ++ [.newMsg p] := by
  rcases enqueue_cases p s with ⟨_, logged⟩ | ⟨_, silent⟩
  case inl => rw [logged]; exact List.filter_append ..
  case inr => rw [silent]; exact List.filter_append ..

/-- Settles O26: the queue and the announcements after an enqueue are those of `enqueueStore_q` and
`enqueue_newMsgs`, which name neither the log registers nor `debug_out`. -/
theorem suppressionHidesNothing : Obligations.SuppressionHidesNothing := by
  intro p last s valid debug
  refine ⟨_, _, exec_enqueue p s, exec_enqueue p _, ?queue, ?announced⟩
  case queue => rw [enqueue_q, enqueue_q, enqueueStore_q, enqueueStore_q]
  case announced => rw [enqueue_newMsgs, enqueue_newMsgs]

/-- Settles O23: the payload is logged where `rxlogDue` holds, which `rxlogDue_iff` spells out. -/
theorem enqueueRule : Obligations.EnqueueRule := by
  intro p s
  refine ⟨enqueue p s, exec_enqueue p s, enqueue_q p s, ?log, enqueue_frame p s⟩
  case log =>
    rcases enqueue_cases p s with ⟨due, logged⟩ | ⟨notDue, silent⟩
    case inl =>
      rw [if_pos ((rxlogDue_iff p s).mp due), logged]
      exact ⟨rfl, rfl, rfl⟩
    case inr =>
      have quiet : ¬ rxlogDue p s = true := by simp [notDue]
      rw [if_neg (mt (rxlogDue_iff p s).mpr quiet), silent]
      exact ⟨rfl, rfl, rfl⟩

/-! ### `DEQUEUE` (R146) -/

theorem exec_dequeue (s : State) : exec .dequeue s = execDequeue s := rfl

theorem exec_dequeue_nil {s : State} (empty : s.q = []) :
    exec .dequeue s = .next { s with result := .dequeued none } := by
  rw [exec_dequeue]
  simp [execDequeue, returning, empty]

theorem exec_dequeue_cons {s : State} {p : Payload} {r : List Payload} (head : s.q = p :: r) :
    exec .dequeue s = .next { s with q := r, result := .dequeued (some p) } := by
  rw [exec_dequeue]
  simp [execDequeue, returning, head]

/-- Settles O24: an empty queue, a queue with a head, and the operation's code. -/
theorem dequeueRule : Obligations.DequeueRule :=
  ⟨fun _ empty => exec_dequeue_nil empty, fun _ _ _ head => exec_dequeue_cons head, rfl⟩

end Sys2Proof.Machine

/-! The command sequencer's tick (R158, R159, R161): `SEQTICK` and phase 4 of `CYCLE`. -/

namespace Sys2Proof.Machine

theorem exec_seqtick (now : Time) (s : State) : exec (.seqtick now) s = .next (seqTick now s) := rfl

theorem exec_cycleSeqtick (now : Time) (s : State) :
    exec (.cycleSeqtick now) s = .next (seqTick now s) := rfl

/-! ### The payload and the index of a transmission (R158, R160) -/

theorem nextPayload_of_lt {d : Config.CommandDef} {idx : Nat} (left : idx < d.prefixes.length) :
    nextPayload d idx = d.prefixes[idx] := by
  simp [nextPayload, left]

theorem nextPayload_of_le {d : Config.CommandDef} {idx : Nat} (sent : d.prefixes.length ≤ idx) :
    nextPayload d idx = d.final := by
  simp [nextPayload, sent]

theorem nextIndex_of_lt {d : Config.CommandDef} {idx : Nat} (left : idx < d.prefixes.length) :
    nextIndex d idx = idx + 1 := if_pos left

theorem nextIndex_of_le {d : Config.CommandDef} {idx : Nat} (sent : d.prefixes.length ≤ idx) :
    nextIndex d idx = idx := if_neg (Nat.not_lt.mpr sent)

/-! ### One transmission -/

/-- Logged or not, a transmission advances the index and writes the stamp. -/
theorem sendNext_stamp (now : Time) (d : Config.CommandDef) (s : State) :
    (sendNext now d s).seqIdx = nextIndex d s.seqIdx ∧
      (sendNext now d s).seqLast = now ∧ (sendNext now d s).seqLastValid = true := by
  rcases sendNext_cases now d s with ⟨_, logged⟩ | ⟨_, silent⟩
  case inl => rw [logged]; exact ⟨rfl, rfl, rfl⟩
  case inr => rw [silent]; exact ⟨rfl, rfl, rfl⟩

/-- The log registers and the output after a transmission (R161). -/
theorem sendNext_log (now : Time) (d : Config.CommandDef) (s : State) :
    if s.debugOut = true ∨ s.txlogValid = false ∨ s.txlogLast ≠ nextPayload d s.seqIdx then
      (sendNext now d s).txlogLast = nextPayload d s.seqIdx ∧
        (sendNext now d s).txlogValid = true ∧
        (sendNext now d s).out = s.out ++ [.tx (frameOf (nextPayload d s.seqIdx)),
          .diag (.iTxlog (nextPayload d s.seqIdx))]
    else
      (sendNext now d s).txlogLast = s.txlogLast ∧
        (sendNext now d s).txlogValid = s.txlogValid ∧
        (sendNext now d s).out = s.out ++ [.tx (frameOf (nextPayload d s.seqIdx))] := by
  rcases sendNext_cases now d s with ⟨due, logged⟩ | ⟨notDue, silent⟩
  case inl =>
    rw [if_pos ((txlogDue_iff _ s).mp due), logged]
    exact ⟨rfl, rfl, rfl⟩
  case inr =>
    have quiet : ¬ txlogDue (nextPayload d s.seqIdx) s = true := by simp [notDue]
    rw [if_neg (mt (txlogDue_iff _ s).mpr quiet), silent]
    exact ⟨rfl, rfl, rfl⟩

/-! ### The gate (R158, R159, R165) -/

/-- No command is selected, or the gate is shut: the tick changes nothing. -/
theorem seqTick_silent {now : Time} {s : State}
    (shut : s.seqSelValid = false ∨
      (s.seqLastValid = true ∧ now - s.seqLast < s.cfg.sendInterval)) :
    seqTick now s = s := by
  rcases seqTick_cases now s with unchanged | ⟨d, selected, gate, _, _⟩
  case inl => exact unchanged
  case inr =>
    rcases shut with unselected | ⟨stamped, early⟩
    case inl => simp [unselected] at selected
    case inr =>
      rcases (sendGateOpen_iff now s).mp gate with unstamped | late
      case inl => simp [unstamped] at stamped
      case inr => exact absurd early (BitVec.not_lt.mpr late)

/-- A command of the table is selected and the gate is open: the tick is one transmission. -/
theorem seqTick_sends {now : Time} {s : State} {d : Config.CommandDef}
    (selected : s.seqSelValid = true)
    (gate : s.seqLastValid = false ∨ s.cfg.sendInterval ≤ now - s.seqLast)
    (key : commandOf s.cfg s.seqCmd = some d) :
    seqTick now s = sendNext now d s := by
  simp [seqTick, selected, (sendGateOpen_iff now s).mpr gate, key]

/-- Settles O29: `seqTick_silent` at a shut gate; at an open one the tick is the transmission that
`sendNext_stamp` and `sendNext_log` describe, and `seqTick_frame` keeps the rest. -/
theorem seqtickRule : Obligations.SeqtickRule := by
  refine ⟨fun now s shut => ?silent, fun now s d selected gate key => ?sends, fun _ => ⟨rfl, rfl⟩⟩
  case silent =>
    rw [exec_seqtick, exec_cycleSeqtick, seqTick_silent shut]
    exact ⟨rfl, rfl⟩
  case sends =>
    have sent : seqTick now s = sendNext now d s := seqTick_sends selected gate key
    have frame := seqTick_frame now s
    rw [sent] at frame
    obtain ⟨index, stamp, stamped⟩ := sendNext_stamp now d s
    refine ⟨sendNext now d s, nextPayload d s.seqIdx, ?host, ?phase, fun left => ?nextPrefix,
      fun spent => ?finalPayload, stamp, stamped, sendNext_log now d s, frame⟩
    case host => rw [exec_seqtick, sent]
    case phase => rw [exec_cycleSeqtick, sent]
    case nextPrefix => exact ⟨nextPayload_of_lt left, index.trans (nextIndex_of_lt left)⟩
    case finalPayload => exact ⟨nextPayload_of_le spent, index.trans (nextIndex_of_le spent)⟩

end Sys2Proof.Machine

/-! The sensor debounce layer (R171, R173): `RAWWR` from the edge handlers, and `RECONCILE`. -/

namespace Sys2Proof.Machine

/-! ### `RAWWR` (R171) -/

@[simp] theorem sensorOfIndex_sensorIndex (x : Sensor) :
    sensorOfIndex (sensorIndex x) = some x := by
  cases x <;> rfl

theorem sensorIndex_inj {x y : Sensor} : sensorIndex x = sensorIndex y ↔ x = y := by
  refine ⟨fun same => ?_, congrArg sensorIndex⟩
  have named : sensorOfIndex (sensorIndex x) = sensorOfIndex (sensorIndex y) := by rw [same]
  simpa using named

theorem exec_rawwr_sensorIndex (x : Sensor) (v : Bool) (s : State) :
    exec (.rawwr (sensorIndex x) v) s = .next { s with raw := s.raw.set x v } := by
  change execRawwr (sensorIndex x) v s = _
  rw [execRawwr, sensorOfIndex_sensorIndex]

/-- A step takes the handler's move off the list and runs its `RAWWR` (R267). -/
theorem step_edge {x : Sensor} {v : Bool} {s : State} {r : List Move}
    (oldest : s.pending = .edge x v :: r) :
    step s = .next { s with pending := r, raw := s.raw.set x v } := by
  have fetched : fetch s = .ok (some (.rawwr (sensorIndex x) v, r)) := by
    rw [fetch, oldest]; rfl
  rw [step, fetched]
  exact exec_rawwr_sensorIndex x v { s with pending := r }

/-- A sensor's `RAWWR` belongs to that sensor's handler, because no two sensors share an index. -/
theorem mayIssue_rawwr_sensorIndex (a : Agent) (x : Sensor) (v : Bool) :
    mayIssue a (.rawwr (sensorIndex x) v) = true ↔ a = .edgeHandler x := by
  cases a with
  | controlLoop => simp [mayIssue]
  | edgeHandler y => simp [mayIssue, sensorIndex_inj, eq_comm]

/-- Settles O31: `exec_rawwr_sensorIndex` with what a written flag file reads as, `step_edge`,
`mayIssue_rawwr_sensorIndex`, and the operation's code. -/
theorem rawwrRule : Obligations.RawwrRule := by
  refine ⟨fun x v s => ?effect, fun _ _ _ _ => step_edge, mayIssue_rawwr_sensorIndex,
    fun _ _ => rfl⟩
  case effect =>
    exact ⟨_, exec_rawwr_sensorIndex x v s, SensorFlags.get_set_self s.raw x v,
      fun y other => SensorFlags.get_set_of_ne s.raw x y v other, rfl⟩

/-! ### `RECONCILE` (R173) -/

@[simp] theorem SensorFlags.set_get (f : SensorFlags) (x : Sensor) : f.set x (f.get x) = f := by
  cases x <;> rfl

/-- The reports of a list's sensors whose raw and stable flags differ, in the list's order. -/
def changeReports (xs : List Sensor) (s : State) : List Output :=
  (xs.filter (fun x => s.raw.get x != s.stable.get x)).map
    (fun x => .diag (.iSensor x (s.raw.get x)))

theorem changeReports_cons (x : Sensor) (xs : List Sensor) (s : State) :
    changeReports (x :: xs) s = changeReports [x] s ++ changeReports xs s := by
  rw [changeReports, ← List.singleton_append, List.filter_append, List.map_append]
  rfl

/-- A round of `RECONCILE` copies its sensor's flag, differing or not, and reports it if it did. -/
theorem reconcileSensor_eq (x : Sensor) (s : State) :
    reconcileSensor x s = { s with
      stable := s.stable.set x (s.raw.get x), out := s.out ++ changeReports [x] s } := by
  unfold reconcileSensor
  split
  case isTrue differs => simp [changeReports, differs, emit, emitOutput]
  case isFalse agrees =>
    have same : s.raw.get x = s.stable.get x := by simpa using agrees
    simp [changeReports, same]

/-- The round of one sensor changes no report of the others: their flags are left as they were. -/
theorem changeReports_reconcileSensor {x : Sensor} {xs : List Sensor} (apart : x ∉ xs)
    (s : State) : changeReports xs (reconcileSensor x s) = changeReports xs s := by
  rw [reconcileSensor_eq, changeReports, changeReports]
  congr 1
  refine List.filter_congr fun y member => ?_
  have other : y ≠ x := fun same => apart (same ▸ member)
  simp [other]

/-- The rounds of distinct sensors append their reports in the order of the rounds. -/
theorem foldl_reconcileSensor_out {xs : List Sensor} (distinct : xs.Nodup) (s : State) :
    (xs.foldl (fun u x => reconcileSensor x u) s).out = s.out ++ changeReports xs s := by
  induction xs generalizing s with
  | nil => simp [changeReports]
  | cons x r ih =>
    obtain ⟨apart, rest⟩ := List.nodup_cons.mp distinct
    have head : (reconcileSensor x s).out = s.out ++ changeReports [x] s := by
      rw [reconcileSensor_eq]
    rw [List.foldl_cons, ih rest, changeReports_reconcileSensor apart, head,
      changeReports_cons x r, List.append_assoc]

theorem reconcile_out (s : State) :
    (reconcile s).out = s.out ++ changeReports [.airA, .airB, .radarA, .radarB] s :=
  foldl_reconcileSensor_out (xs := [.airA, .airB, .radarA, .radarB]) (by decide) s

theorem exec_cycleReconcile (s : State) : exec .cycleReconcile s = .next (reconcile s) := rfl

/-- Settles O32: `reconcile_frame` gives the stable flags and all that is left unchanged,
`reconcile_out` the reports. -/
theorem reconcileRule : Obligations.ReconcileRule := by
  intro s
  have copied : (reconcile s).stable = s.raw := by rw [reconcile_frame]
  refine ⟨reconcile s, exec_cycleReconcile s, copied, reconcile_out s, ?frame⟩
  case frame =>
    rw [copied]
    exact reconcile_frame s

end Sys2Proof.Machine

/-! The door control state machine (R185 to R200): what each arm does, the two triggers and their
action, and what `trigger_release` says after a `CYCLE`. -/

namespace Sys2Proof.Machine

open Sys2Proof.Safety

/-! ### Moves of the control state (R186, R189) -/

theorem setCtl_of_ne {now : Time} {new : CtlState} {s : State} (moves : new ≠ s.ctlState) :
    setCtl now new s = movedTo now new s := if_pos moves

/-- From any other state the recovery is a move, so both events are appended (R189, R193, R197). -/
theorem forceUndefined_of_ne {now : Time} {pos : Position} {s : State}
    (moves : .undefined ≠ s.ctlState) :
    forceUndefined now pos s = { s with
      ctlState := .undefined, doorStateLastChanged := now,
      out := s.out ++ [.diag (.eInconsistent s.ctlState pos),
        .diag (.iState s.ctlState .undefined)] } := by
  rw [forceUndefined, setCtl_of_ne (s := raise _ s) moves]
  simp [movedTo, emitOutput]

/-! ### A door step in `MANUAL` and `AUTOMATIC` (R185) -/

theorem doorStep_of_active {now : Time} {pos : Position} {s : State}
    (active : s.mode = 2 ∨ s.mode = 3) :
    doorStep now pos s = doorArm now pos (clearRelease s) :=
  if_pos ((doorStepActive_iff s).mpr active)

theorem exec_cycleDoorstep_of_arm {now : Time} {pos : Position} {s t : State}
    (active : s.mode = 2 ∨ s.mode = 3) (arm : doorArm now pos (clearRelease s) = t) :
    exec (.cycleDoorstep now pos) s = .next t := by
  change Host.Outcome.next (doorStep now pos s) = _
  rw [doorStep_of_active active, arm]

/-! ### The arms without a trigger (R187, R188, R189, R193, R194, R197, R200) -/

theorem doorArm_undefined {now : Time} {pos : Position} {s : State}
    (state : s.ctlState = .undefined) :
    doorArm now pos s =
      if pos = .opened then movedTo now .openStart s
      else if pos = .closed then movedTo now .closed s
      else s := by
  have opens : setCtl now .openStart s = movedTo now .openStart s := setCtl_of_ne (by simp [state])
  have closes : setCtl now .closed s = movedTo now .closed s := setCtl_of_ne (by simp [state])
  cases pos <;> simp [doorArm, state, doorUndefined, opens, closes]

theorem doorArm_openStart {now : Time} {pos : Position} {s : State}
    (state : s.ctlState = .openStart) :
    doorArm now pos s = movedTo now .opened { s with doorOpenSince := now } := by
  have arm : doorArm now pos s = doorOpenStart now s := by rw [doorArm, state]
  exact arm.trans (setCtl_of_ne (s := { s with doorOpenSince := now }) (by simp [state]))

/-- The three states that stand for one position recover alike from any other. -/
theorem doorArm_of_contradicts {now : Time} {pos : Position} {s : State}
    (against : contradicts pos s) :
    doorArm now pos s = { s with
      ctlState := .undefined, doorStateLastChanged := now,
      out := s.out ++ [.diag (.eInconsistent s.ctlState pos),
        .diag (.iState s.ctlState .undefined)] } := by
  rcases against with ⟨state, other⟩ | ⟨state | state, other⟩
  all_goals
    rw [← forceUndefined_of_ne (by simp [state]), doorArm, state]
    exact if_pos other

theorem doorArm_closed_lockActive {now : Time} {s : State} (state : s.ctlState = .closed)
    (locked : s.lockActive = true) :
    doorArm now .closed s = movedTo now .closedLocked s := by
  rw [← setCtl_of_ne (by simp [state]), doorArm, state]
  simp [doorClosed, locked]

theorem doorArm_closedLocked {now : Time} {s : State} (state : s.ctlState = .closedLocked) :
    doorArm now .closed s = if s.lockActive = false then movedTo now .closed s else s := by
  rw [← setCtl_of_ne (by simp [state]), doorArm, state]
  cases lock : s.lockActive <;> simp [doorClosedLocked, lock]

theorem fallbackState_eq (pos : Position) :
    fallbackState pos =
      if pos = .opened then .openStart else if pos = .closed then .closed else .undefined := by
  cases pos <;> rfl

theorem fallbackState_ne_transition (pos : Position) : fallbackState pos ≠ .transition := by
  cases pos <;> simp [fallbackState]

theorem doorArm_transition {now : Time} {pos : Position} {s : State}
    (state : s.ctlState = .transition) :
    doorArm now pos s =
      if pos ≠ s.posAtEntry ∨ s.cfg.transitionTimeout ≤ now - s.doorStateLastChanged then
        movedTo now (fallbackState pos) s
      else s := by
  rw [← setCtl_of_ne (state ▸ fallbackState_ne_transition pos), doorArm, state]
  simp [doorTransition, ← transitionExpired_iff]

/-- Settles O35: the arm `UNDEFINED`, by `doorArm_undefined`. -/
theorem doorUndefinedArm : Obligations.DoorUndefinedArm :=
  fun _ _ _ active state => exec_cycleDoorstep_of_arm active (doorArm_undefined state)

/-- Settles O36: the arm `OPEN_START`, by `doorArm_openStart`. -/
theorem doorOpenStartArm : Obligations.DoorOpenStartArm :=
  fun _ _ _ active state => exec_cycleDoorstep_of_arm active (doorArm_openStart state)

/-- Settles O37: both states of the statement are cases of `contradicts`. -/
theorem doorContradiction : Obligations.DoorContradiction := by
  intro now pos s active against
  have against' : contradicts pos (clearRelease s) :=
    against.imp_right fun ⟨state, other⟩ => ⟨.inl state, other⟩
  exact exec_cycleDoorstep_of_arm active (doorArm_of_contradicts against')

/-- Settles O39: the lock is tested before the trigger, by `doorArm_closed_lockActive`. -/
theorem doorLockCheck : Obligations.DoorLockCheck :=
  fun _ _ active state locked =>
    exec_cycleDoorstep_of_arm active (doorArm_closed_lockActive state locked)

/-- Settles O41: a contradicting position is a case of `contradicts`; at `CLOSED` the lock decides. -/
theorem doorClosedLockedArm : Obligations.DoorClosedLockedArm := by
  intro now pos s active state
  refine exec_cycleDoorstep_of_arm active ?_
  by_cases closed : pos = .closed
  case pos =>
    subst closed
    exact doorArm_closedLocked (s := clearRelease s) state
  case neg =>
    have against : contradicts pos (clearRelease s) := .inr ⟨.inr state, closed⟩
    rw [if_pos closed, doorArm_of_contradicts against, ← state]
    rfl

/-- Settles O42: the arm `TRANSITION`, by `doorArm_transition` with the fallback written out. -/
theorem doorTransitionArm : Obligations.DoorTransitionArm := by
  intro now pos s active state
  rw [← fallbackState_eq]
  exact exec_cycleDoorstep_of_arm active (doorArm_transition state)

/-! ### The triggers and their action (R190 to R192, R195, R196, R198) -/

theorem doorArm_opened {now : Time} {s : State} (state : s.ctlState = .opened) :
    doorArm now .opened s = fireTrigger now .opened (releaseTrigger now s) tokenCloseCode s := by
  rw [doorArm, state]
  rfl

theorem doorArm_closed_unlocked {now : Time} {s : State} (state : s.ctlState = .closed)
    (unlocked : s.lockActive = false) :
    doorArm now .closed s = fireTrigger now .closed (openTrigger s) tokenOpenCode s := by
  rw [doorArm, state]
  simp [doorClosed, unlocked]

theorem exec_select (code : Byte) (s : State) : exec (.select code) s = .next (hostSelect code s) :=
  rfl

/-- `SELECT` neither reads nor writes `trigger_release`. -/
theorem selectCommand_triggerRelease (code : Byte) (v : Bool) (s : State) :
    selectCommand code { s with triggerRelease := v } =
      { selectCommand code s with triggerRelease := v } := by
  have sameKey : selectOk code { s with triggerRelease := v } = selectOk code s := rfl
  unfold selectCommand
  rw [sameKey]
  cases selectOk code s <;> rfl

/-- The state a trigger of the door step leads to from `s`, where the host's `SELECT` leads to `u`. -/
def transitionEntered (now : Time) (pos : Position) (s u : State) : State :=
  movedTo now .transition { u with
    result := s.result, triggerRelease := true,
    swLatch := List.replicate s.swLatch.length false, posAtEntry := pos }

/-- A trigger that fires does to the sequencer what the host's `SELECT` does, its result aside, and
enters `TRANSITION` (R192, R196, R198). -/
theorem fireTrigger_of_true {now : Time} {pos : Position} {fires : Bool} {command : Byte} {s : State}
    (outside : s.ctlState ≠ .transition) (holds : fires = true) :
    fireTrigger now pos fires command (clearRelease s) =
      transitionEntered now pos s (hostSelect command s) := by
  have commuted : selectCommand command { clearRelease s with triggerRelease := true } =
      { selectCommand command s with triggerRelease := true } :=
    selectCommand_triggerRelease command true s
  rw [fireTrigger_eq _ _ _ _ (clearRelease s) outside, if_pos holds, firedState, List.map_const',
    commuted, transitionEntered, hostSelect]
  rcases selectCommand_cases command s with ⟨_, selected⟩ | ⟨_, rejected⟩
  case inl => rw [selected]; rfl
  case inr => rw [rejected]; rfl

theorem fireTrigger_of_false {now : Time} {pos : Position} {fires : Bool} {command : Byte}
    {s : State} (fails : fires = false) :
    fireTrigger now pos fires command (clearRelease s) = clearRelease s := by
  rw [fails]
  rfl

/-- A door step whose arm comes down to a trigger, for either trigger: it fires, or only
`trigger_release` is cleared. -/
theorem exec_cycleDoorstep_of_trigger {now : Time} {pos : Position} {fires : Bool} {trig : Prop}
    {command : Byte} {s : State} (active : s.mode = 2 ∨ s.mode = 3)
    (outside : s.ctlState ≠ .transition)
    (arm : doorArm now pos (clearRelease s) = fireTrigger now pos fires command (clearRelease s))
    (meaning : fires = true ↔ trig) :
    (trig → ∃ u : State, exec (.select command) s = .next u ∧
      exec (.cycleDoorstep now pos) s = .next (transitionEntered now pos s u)) ∧
    (¬ trig → exec (.cycleDoorstep now pos) s = .next (clearRelease s)) := by
  refine ⟨fun holds => ⟨hostSelect command s, exec_select command s, ?fired⟩, fun fails => ?quiet⟩
  case fired =>
    exact exec_cycleDoorstep_of_arm active
      (arm.trans (fireTrigger_of_true outside (meaning.mpr holds)))
  case quiet =>
    have notFires : fires = false := Bool.eq_false_iff.mpr (mt meaning.mp fails)
    exact exec_cycleDoorstep_of_arm active (arm.trans (fireTrigger_of_false notFires))

/-- Settles O38: by mode, the stated condition is `releaseTrigger`, which the arm `OPEN` acts on. -/
theorem doorReleaseTrigger : Obligations.DoorReleaseTrigger := by
  intro now s state trig modes
  have active : s.mode = 2 ∨ s.mode = 3 := modes.symm.imp And.left And.left
  have fires : releaseTrigger now s = true ↔ trig := by
    rcases modes with ⟨automatic, meaning⟩ | ⟨manual, meaning⟩
    case inl =>
      rw [releaseTrigger_automatic now s automatic, Bool.and_eq_true, allSensorsClear_iff,
        heldOpen_iff, meaning]
    case inr =>
      rw [releaseTrigger_manual now s manual, Bool.and_eq_true, airClear_iff, latchSet_iff, meaning,
        and_assoc]
  exact exec_cycleDoorstep_of_trigger active (by simp [state])
    (doorArm_opened (s := clearRelease s) state) fires

/-- Settles O40: by mode, the stated condition is `openTrigger`, which the arm `CLOSED` acts on. -/
theorem doorOpenTrigger : Obligations.DoorOpenTrigger := by
  intro now s state unlocked trig modes
  have active : s.mode = 2 ∨ s.mode = 3 := modes.symm.imp And.left And.left
  have fires : openTrigger s = true ↔ trig := by
    rcases modes with ⟨automatic, meaning⟩ | ⟨manual, meaning⟩
    case inl => rw [openTrigger_automatic s automatic, radarActive_iff, meaning]
    case inr => rw [openTrigger_manual s manual, latchSet_iff, meaning]
  exact exec_cycleDoorstep_of_trigger active (by simp [state])
    (doorArm_closed_unlocked (s := clearRelease s) state unlocked) fires

/-! ### What `trigger_release` says (R199) -/

@[simp] theorem movedTo_triggerRelease (now : Time) (new : CtlState) (s : State) :
    (movedTo now new s).triggerRelease = s.triggerRelease := rfl

@[simp] theorem fireTrigger_triggerRelease (now : Time) (pos : Position) (fires : Bool)
    (command : Byte) (s : State) :
    (fireTrigger now pos fires command s).triggerRelease = fires := by
  cases fires with
  | false => rfl
  | true =>
    simp only [fireTrigger, if_true, enterTransition]
    rw [setCtl_frame, selectCommand_frame]

/-- The arm of the control state evaluates a trigger, and the trigger holds (R190, R191, R195). -/
def triggered (now : Time) (pos : Position) (s : State) : Prop :=
  (s.ctlState = .opened ∧ pos = .opened ∧ releaseTrigger now s = true) ∨
    (s.ctlState = .closed ∧ pos = .closed ∧ s.lockActive = false ∧ openTrigger s = true)

theorem doorArm_triggerRelease {now : Time} {pos : Position} {s : State}
    (cleared : s.triggerRelease = false) :
    (doorArm now pos s).triggerRelease = true ↔ triggered now pos s := by
  cases state : s.ctlState with
  | undefined =>
    rw [doorArm_undefined state]
    split_ifs <;> simp [triggered, state, cleared]
  | openStart => simp [doorArm_openStart state, triggered, state, cleared]
  | opened =>
    by_cases agrees : pos = .opened
    · subst agrees
      simp [doorArm_opened state, triggered, state]
    · simp [doorArm_of_contradicts (.inl ⟨state, agrees⟩), triggered, state, agrees, cleared]
  | closed =>
    by_cases agrees : pos = .closed
    · subst agrees
      cases lock : s.lockActive with
      | true => simp [doorArm_closed_lockActive state lock, triggered, state, lock, cleared]
      | false => simp [doorArm_closed_unlocked state lock, triggered, state, lock]
    · simp [doorArm_of_contradicts (.inr ⟨.inl state, agrees⟩), triggered, state, agrees, cleared]
  | closedLocked =>
    by_cases agrees : pos = .closed
    · subst agrees
      rw [doorArm_closedLocked state]
      split_ifs <;> simp [triggered, state, cleared]
    · simp [doorArm_of_contradicts (.inr ⟨.inr state, agrees⟩), triggered, state, cleared]
  | transition =>
    rw [doorArm_transition state]
    split_ifs <;> simp [triggered, state, cleared]

theorem doorStep_triggerRelease (now : Time) (pos : Position) (s : State) :
    (doorStep now pos s).triggerRelease = true ↔
      (s.mode = 2 ∨ s.mode = 3) ∧ triggered now pos s := by
  rcases doorStep_cases now pos s with ⟨inert, step⟩ | ⟨active, step⟩
  case inl =>
    have notActive := mt (doorStepActive_iff s).mpr (ne_true_of_eq_false inert)
    rw [step]
    exact iff_of_false Bool.false_ne_true fun ⟨mode, _⟩ => notActive mode
  case inr =>
    rw [step, doorArm_triggerRelease (s := clearRelease s) rfl,
      and_iff_right ((doorStepActive_iff s).mp active)]
    exact Iff.rfl

theorem exec_cycle_positionCode (now : Time) (p : Position) (s : State) :
    exec (.cycle now (positionCode p)) s = .next (controlCycle now p s) := by
  cases p <;> rfl

/-- The phases after the door step leave `trigger_release` as it wrote it. -/
theorem controlCycle_triggerRelease (now : Time) (p : Position) (s : State) :
    (controlCycle now p s).triggerRelease =
      (doorStep now p (reconcile { s with posLast := p })).triggerRelease := by
  rw [controlCycle, seqTick_frame, lockStep_frame]

/-- Settles O43: only the door step writes `trigger_release`, and it sees the flags `RECONCILE` has
just copied from the raw ones. -/
theorem triggerReleaseMeaning : Obligations.TriggerReleaseMeaning := by
  intro now p s
  refine ⟨controlCycle now p s, exec_cycle_positionCode now p s, ?_⟩
  rw [controlCycle_triggerRelease, doorStep_triggerRelease, reconcile_frame]
  exact Iff.rfl

end Sys2Proof.Machine

/-! The lock logic, phase 3 of `CYCLE` (R215 to R220): a pulse in progress, and a request that has
to wait for the door. -/

namespace Sys2Proof.Machine

theorem exec_cycleLockstep (now : Time) (s : State) :
    exec (.cycleLockstep now) s = .next (lockStep now s) := rfl

/-! ### Which branch the lock step takes (R215, R217, R220) -/

theorem lockStep_of_pulseActive {now : Time} {s : State} (pulsing : s.pulseActive = true) :
    lockStep now s = runPulse now s := if_pos pulsing

theorem lockStep_of_idle {now : Time} {s : State} (idle : s.pulseActive = false) :
    lockStep now s =
      if requestPending s then
        if doorFullyClosed s then honourRequest now s else remind now s
      else { s with reminderValid := false } := if_neg (ne_true_of_eq_false idle)

theorem lockStep_of_waiting {now : Time} {s : State} (idle : s.pulseActive = false)
    (pending : s.lockRequested ≠ s.lockActive)
    (notClosed : ¬ (s.ctlState = .closed ∨ s.ctlState = .closedLocked)) :
    lockStep now s = remind now s := by
  rw [lockStep_of_idle idle, if_pos ((requestPending_iff s).mpr pending),
    if_neg (mt (doorFullyClosed_iff s).mp notClosed)]

theorem lockStep_of_not_pending {now : Time} {s : State} (idle : s.pulseActive = false)
    (agreed : s.lockRequested = s.lockActive) :
    lockStep now s = { s with reminderValid := false } := by
  have notPending : ¬ requestPending s = true :=
    mt (requestPending_iff s).mp (not_not_intro agreed)
  rw [lockStep_of_idle idle, if_neg notPending]

/-! ### What the pulse and the reminder do (R216, R219) -/

theorem runPulse_eq (now : Time) (s : State) :
    runPulse now s =
      if s.cfg.lockPulseDuration ≤ now - s.pulseStart then
        { s with
          lockRelay := false, pulseActive := false,
          out := s.out ++ [.diag (.iLock false s.lockActive)] }
      else s := if_congr (pulseOver_iff now s) rfl rfl

theorem remind_eq (now : Time) (s : State) :
    remind now s =
      if s.reminderValid = false ∨ s.cfg.reminderInterval ≤ now - s.reminderLast then
        { s with
          reminderLast := now, reminderValid := true,
          out := s.out ++ [.lockReminder s.lockRequested] }
      else s := if_congr (reminderDue_iff now s) rfl rfl

/-- Settles O49: during a pulse the lock step is `runPulse` alone. -/
theorem lockPulseRule : Obligations.LockPulseRule := by
  intro now s pulsing
  rw [exec_cycleLockstep, lockStep_of_pulseActive pulsing, runPulse_eq]

/-- Settles O51: without a pulse, a request that waits for the door gets `remind`, and an agreed one
clears the schedule. -/
theorem lockReminderRule : Obligations.LockReminderRule := by
  intro now s idle
  refine ⟨fun pending notClosed notLocked => ?waiting, fun agreed => ?agreed⟩
  case waiting =>
    have closedNeither := not_or.mpr ⟨notClosed, notLocked⟩
    rw [exec_cycleLockstep, lockStep_of_waiting idle pending closedNeither, remind_eq]
  case agreed => rw [exec_cycleLockstep, lockStep_of_not_pending idle agreed]

end Sys2Proof.Machine

/-! The control cycle and the host's writes (R230, R235 to R238): `CYCLE` with and without a position,
and the one register that each host write changes. -/

namespace Sys2Proof.Machine

/-! ### `CYCLE` (R230) -/

theorem positionOfCode_eq_none_iff (code : BitVec 3) :
    positionOfCode code = none ↔ 4 < code.toNat := by
  revert code
  decide

theorem exec_cycle (now : Time) (code : BitVec 3) (s : State) :
    exec (.cycle now code) s = execCycle now code s := rfl

/-- A position code out of range makes the whole operation a no-op (R93). -/
theorem exec_cycle_of_code_gt {now : Time} {code : BitVec 3} {s : State}
    (outOfRange : 4 < code.toNat) : exec (.cycle now code) s = .next s := by
  rw [exec_cycle, execCycle, (positionOfCode_eq_none_iff code).mpr outOfRange]

theorem exec_cycleDoorstep (now : Time) (pos : Position) (s : State) :
    exec (.cycleDoorstep now pos) s = .next (doorStep now pos s) := rfl

/-- Settles O45: the states between the phases are the inner terms of `controlCycle`. -/
theorem cycleIsItsPhases : Obligations.CycleIsItsPhases := by
  refine ⟨fun now p s => ?phases, fun _ _ _ => exec_cycle_of_code_gt, fun _ _ => rfl⟩
  case phases =>
    exact ⟨_, _, _, _, exec_cycleReconcile { s with posLast := p }, exec_cycleDoorstep now p _,
      exec_cycleLockstep now _, exec_cycleSeqtick now _, exec_cycle_positionCode now p s⟩

/-! ### The host's writes (R235 to R238) -/

theorem exec_setmode (m : Byte) (s : State) :
    exec (.setmode m) s = .next { s with mode := m } := rfl

theorem exec_setlockreq (v : Bool) (s : State) :
    exec (.setlockreq v) s = .next { s with lockRequested := v } := rfl

theorem exec_setdebug (v : Bool) (s : State) :
    exec (.setdebug v) s = .next { s with debugOut := v } := rfl

theorem exec_setlatch (k : Byte) (s : State) :
    exec (.setlatch k) s =
      .next (if k.toNat < s.cfg.nSwitch then { s with swLatch := s.swLatch.set k.toNat true }
        else s) := rfl

theorem exec_setlatch_of_lt {k : Byte} {s : State} (inRange : k.toNat < s.cfg.nSwitch) :
    exec (.setlatch k) s = .next { s with swLatch := s.swLatch.set k.toNat true } := by
  rw [exec_setlatch, if_pos inRange]

/-- Settles O53: the equations of the four writes; that `SETLATCH` sets its own latch needs the list
of latches to reach the index, that it sets no other does not. -/
theorem hostWriteRules : Obligations.HostWriteRules := by
  refine ⟨exec_setmode, exec_setlockreq, exec_setdebug, fun k s inRange latches => ?latch,
    fun _ _ _ => ⟨rfl, rfl, rfl, rfl⟩⟩
  case latch =>
    have inList : k.toNat < s.swLatch.length := latches ▸ inRange
    exact ⟨_, exec_setlatch_of_lt inRange, List.getElem?_set_self inList,
      fun j other => List.getElem?_set_ne other.symm, rfl⟩

end Sys2Proof.Machine

/-! Reset (R280, R281): the values of the registers after `RESET` and after power-up. -/

namespace Sys2Proof.Machine

open Sys2Proof.Safety

theorem SensorFlags.get_allClear (x : Sensor) : SensorFlags.allClear.get x = false := by
  cases x <;> rfl

/-- The state `RESET` leaves: every unit reset, and the next draw of the free values. -/
def afterReset (s : State) : State :=
  { resetLock (resetDoor (resetSequencer (resetInbound s))) with epoch := s.epoch + 1 }

theorem exec_reset (s : State) : exec .reset s = .next (afterReset s) := rfl

/-- What no unit's reset writes: the mode (R281), the parameters and the output stream (R280). -/
theorem afterReset_keeps (s : State) :
    (afterReset s).mode = s.mode ∧ (afterReset s).out = s.out ∧ (afterReset s).cfg = s.cfg :=
  ⟨rfl, rfl, rfl⟩

/-- The latches have the length the kept parameter gives; the sensor flags are `allClear`. -/
theorem resetValues_afterReset (s : State) : resetValues (afterReset s) := by
  have raw : ∀ x, (afterReset s).raw.get x = false := SensorFlags.get_allClear
  have stable : ∀ x, (afterReset s).stable.get x = false := SensorFlags.get_allClear
  have latches : (afterReset s).swLatch = List.replicate (afterReset s).cfg.nSwitch false := rfl
  exact ⟨rfl, rfl, rfl, rfl, rfl, rfl, rfl, rfl, rfl, rfl, raw, stable, latches, rfl, rfl, rfl, rfl,
    rfl, rfl, rfl, rfl⟩

/-- A `RESET` right after power-up changes only registers `resetValues` does not speak of: the
unspecified ones and the counter. -/
theorem resetValues_afterReset_powerUp :
    resetValues (afterReset State.reset) = resetValues State.reset := rfl

/-- Settles O55: `RESET` gives the stated values from any state, so also from the power-up state,
which agrees with its own `RESET` on them. -/
theorem resetRule : Obligations.ResetRule := by
  refine ⟨fun s => ?reset, ?powerUp, rfl, rfl⟩
  case reset => exact ⟨afterReset s, exec_reset s, resetValues_afterReset s, afterReset_keeps s⟩
  case powerUp => exact resetValues_afterReset_powerUp ▸ resetValues_afterReset State.reset

end Sys2Proof.Machine

/-! Encodings (R80 to R97): an instruction is read back from its bytes in every space of its row, a
host operation has no other bytes, and the operation of a pending move is what the step runs. -/

namespace Sys2Proof

/-! ### The stuffed region and the frame (R82, R85, R113) -/

/-- A byte that is no `DLE` is read as itself, whatever follows. -/
theorem unstuff_cons_of_ne {b : Byte} {l l' : List Byte} {p : Payload} (h : b ≠ Config.dle)
    (tail : unstuff l = .ok (p, l')) : unstuff (b :: l) = .ok (b :: p, l') := by
  cases l with
  | nil => cases tail
  | cons c r => simp only [unstuff, if_neg h, tail]

theorem unstuff_dle_dle {l l' : List Byte} {p : Payload} (tail : unstuff l = .ok (p, l')) :
    unstuff (Config.dle :: Config.dle :: l) = .ok (Config.dle :: p, l') := by
  simp only [unstuff, if_true, tail]

/-- The region up to its end delimiter is read back as the payload, whatever follows. -/
theorem unstuff_stuff (p : Payload) (r : List Byte) :
    unstuff (stuff p ++ [Config.dle, Config.etx] ++ r) = .ok (p, r) := by
  induction p with
  | nil => rfl
  | cons b q ih =>
    by_cases h : b = Config.dle
    · subst h
      exact unstuff_dle_dle ih
    · rw [stuff_of_ne b q h]
      exact unstuff_cons_of_ne h ih

theorem decodeFrame_frameOf (p : Payload) (r : List Byte) :
    decodeFrame (frameOf p ++ r) = .ok (.frame p, r) := by
  have region : unstuff (stuff p ++ [Config.dle, Config.etx] ++ (checksum p :: r)) =
      .ok (p, checksum p :: r) := unstuff_stuff p _
  have bytes : frameOf p ++ r =
      Config.dle :: Config.stx :: (stuff p ++ [Config.dle, Config.etx] ++ (checksum p :: r)) := by
    simp [frameOf]
  rw [bytes]
  simp only [decodeFrame, region, and_self, if_true]

theorem frameOf_injective {p q : Payload} (same : frameOf p = frameOf q) : p = q := by
  have read := decodeFrame_frameOf p []
  rw [same, decodeFrame_frameOf q []] at read
  cases read
  rfl

theorem stuff_length (p : Payload) : (stuff p).length = p.length + p.count Config.dle := by
  induction p with
  | nil => rfl
  | cons b q ih =>
    by_cases h : b = Config.dle
    · subst h
      rw [stuff_dle, List.count_cons_self]
      simp only [List.length_cons, ih]
      omega
    · rw [stuff_of_ne b q h, List.count_cons_of_ne h]
      simp only [List.length_cons, ih]
      omega

theorem stuff_count_dle (p : Payload) : (stuff p).count Config.dle = 2 * p.count Config.dle := by
  induction p with
  | nil => rfl
  | cons b q ih =>
    by_cases h : b = Config.dle
    · subst h
      rw [stuff_dle, List.count_cons_self, List.count_cons_self, List.count_cons_self, ih]
      omega
    · rw [stuff_of_ne b q h, List.count_cons_of_ne h, List.count_cons_of_ne h, ih]

theorem frameOf_length (p : Payload) :
    (frameOf p).length = p.length + p.count Config.dle + 5 := by
  simp only [frameOf, List.length_append, stuff_length, List.length_cons, List.length_nil]
  omega

/-- Settles O9: the frame's length and its `DLE` count follow the stuffing, and both the readback
and the injectivity are `unstuff_stuff`. -/
theorem frameShape : Obligations.FrameShape :=
  ⟨fun p => ⟨frameOf_length p, stuff_count_dle p, unstuff_stuff p⟩, fun _ _ => frameOf_injective⟩

/-! ### Decoding an encoding, space by space -/

theorem decodeHostop_encode {i : Instr} (rest : List Byte) (host : inSpace i .hostop = true) :
    decodeHostop (encode i ++ rest) = .ok (i, rest) := by
  cases i with
  | reset | dequeue | unassignedC | unassignedD | unassignedE | unassignedF => rfl
  | rxbyte b => rfl
  | select token => rfl
  | setmode m => rfl
  | setlatch k => rfl
  | seqtick now => exact congrArg (withOperand Instr.seqtick) (takeTime_timeBytes now rest)
  | rawwr k v => exact congrArg (withOperand (Instr.rawwr k)) (takeBit_bitBytes v rest)
  | setlockreq v => exact congrArg (withOperand Instr.setlockreq) (takeBit_bitBytes v rest)
  | setdebug v => exact congrArg (withOperand Instr.setdebug) (takeBit_bitBytes v rest)
  | encode p => exact congrArg (withOperand Instr.encode) (takePayload_payloadBytes p rest)
  | cycle now pos =>
    change decodeCycle (timeBytes now ++ [pos.setWidth 8] ++ rest) = _
    rw [decodeCycle, List.append_assoc, takeTime_timeBytes]
    exact congrArg (withOperand (Instr.cycle now)) (takePosCode_setWidth pos rest)
  | _ => simp [inSpace] at host

theorem decodePhase_encode {i : Instr} (rest : List Byte) (phase : inSpace i .phase = true) :
    decodePhase (encode i ++ rest) = .ok (i, rest) := by
  cases i with
  | cycleReconcile => rfl
  | cycleLockstep now =>
    exact congrArg (withOperand Instr.cycleLockstep) (takeTime_timeBytes now rest)
  | cycleSeqtick now =>
    exact congrArg (withOperand Instr.cycleSeqtick) (takeTime_timeBytes now rest)
  | cycleDoorstep now pos =>
    change decodeDoorstep (timeBytes now ++ [(positionCode pos).setWidth 8] ++ rest) = _
    rw [decodeDoorstep, List.append_assoc, takeTime_timeBytes]
    exact congrArg (withOperand (Instr.cycleDoorstep now)) (takePosition_positionCode pos rest)
  | _ => simp [inSpace] at phase

theorem decodeSubop_encode {i : Instr} (rest : List Byte) (wf : WellFormed i = true)
    (subop : inSpace i .subop = true) : decodeSubop (encode i ++ rest) = .ok (i, rest) := by
  cases i with
  | enqueue p =>
    have short : p.length ≤ Config.maxPayload - 1 := of_decide_eq_true wf
    change decodeSubop (payloadBytes p ++ rest) = _
    simp only [decodeSubop, takePayload_payloadBytes, if_pos short]
  | _ => simp [inSpace] at subop

/-- A well-formed row of the byte map is one byte, and that byte takes the row in every decoder
state and with every running checksum the row belongs to (R91). -/
theorem classify_of_inSpace {i : Instr} {st : RxState} {ck : Byte} (wf : WellFormed i = true)
    (wire : inSpace i (.wirebyte st ck) = true) :
    ∃ b : Byte, encode i = [b] ∧ classify st ck b = i := by
  cases i with
  | rxIdleDle | rxAwaitStxStx | rxAwaitStxDle | rxInFrameDle | rxAfterDleDle | rxAfterDleEtx =>
    have state := of_decide_eq_true wire
    subst state
    exact ⟨_, rfl, rfl⟩
  | rxIdleOther b | rxInFrameData b =>
    have state := of_decide_eq_true wire
    subst state
    exact ⟨b, rfl, if_neg (of_decide_eq_true wf)⟩
  | rxAwaitStxOther b =>
    have state := of_decide_eq_true wire
    obtain ⟨notDle, notStx⟩ : b ≠ Config.dle ∧ b ≠ Config.stx := by simpa [WellFormed] using wf
    subst state
    exact ⟨b, rfl, (if_neg notStx).trans (if_neg notDle)⟩
  | rxAfterDleOther b =>
    have state := of_decide_eq_true wire
    obtain ⟨notDle, notEtx⟩ : b ≠ Config.dle ∧ b ≠ Config.etx := by simpa [WellFormed] using wf
    subst state
    exact ⟨b, rfl, (if_neg notDle).trans (if_neg notEtx)⟩
  | rxAwaitChecksumGood b =>
    obtain ⟨state, equal⟩ : st = .awaitChecksum ∧ b = ck := by simpa [inSpace] using wire
    subst state
    exact ⟨b, rfl, if_pos equal⟩
  | rxAwaitChecksumBad b =>
    obtain ⟨state, differs⟩ : st = .awaitChecksum ∧ b ≠ ck := by simpa [inSpace] using wire
    subst state
    exact ⟨b, rfl, if_neg differs⟩
  | _ => simp [inSpace] at wire

theorem decodeToken_init {k : Byte} (one : 1 ≤ k.toNat) (fits : k.toNat ≤ 0xEF) :
    decodeToken (0x10 + k) = .ok (.tokenInit k) := by
  have code : (0x10 + k : Byte).toNat = 0x10 + k.toNat := by
    rw [BitVec.toNat_add]
    exact Nat.mod_eq_of_lt (show 16 + k.toNat < 256 by omega)
  have index : (0x10 + k : Byte) - 0x10 = k := add_sub_cancel_left 0x10 k
  unfold decodeToken
  split
  case h_6 => rw [if_pos (by omega), index]
  all_goals omega

theorem decode_token_encode {i : Instr} (rest : List Byte) (wf : WellFormed i = true)
    (token : inSpace i .token = true) : decode .token (encode i ++ rest) = .ok (i, rest) := by
  cases i with
  | tokenOpen | tokenOpening | tokenClose | tokenClosing | tokenClosed => rfl
  | tokenInit k =>
    obtain ⟨one, fits⟩ : 1 ≤ k.toNat ∧ k.toNat ≤ 0xEF := by simpa [WellFormed] using wf
    change decode .token ((0x10 + k) :: rest) = _
    simp only [decode, decodeToken_init one fits]
  | _ => simp [inSpace] at token

/-- Settles O2: the spaces one by one, each by its lemma above. -/
theorem decodeOfEncode : Obligations.DecodeOfEncode := by
  intro i sp rest wf member
  cases sp with
  | hostop => exact decodeHostop_encode rest member
  | phase => exact decodePhase_encode rest member
  | subop => exact decodeSubop_encode rest wf member
  | wirebyte st ck =>
    obtain ⟨b, byte, row⟩ := classify_of_inSpace wf member
    rw [byte]
    exact congrArg (fun i => Except.ok (i, rest)) row
  | wireframe =>
    cases i with
    | frame p => exact decodeFrame_frameOf p rest
    | _ => simp [inSpace] at member
  | token => exact decode_token_encode rest wf member

/-- Settles O1: the decoder run on the ten words. -/
theorem writtenWordsDecode : Obligations.WrittenWordsDecode := by
  refine ⟨rfl, rfl, rfl, rfl, rfl, rfl, rfl, rfl, rfl, rfl⟩

/-! ### What an operand was read from -/

theorem takeBit_eq_ok {l r : List Byte} {v : Bool} (h : takeBit l = .ok (v, r)) :
    l = bitBytes v ++ r := by
  cases l with
  | nil => cases h
  | cons b l =>
    rw [takeBit] at h
    split_ifs at h with zero one <;> cases h
    · rw [zero]; rfl
    · rw [one]; rfl

theorem takeByte_eq_ok {l r : List Byte} {b : Byte} (h : takeByte l = .ok (b, r)) : l = b :: r := by
  cases l <;> cases h
  rfl

theorem takeTime_eq_ok {l r : List Byte} {t : Time} (h : takeTime l = .ok (t, r)) :
    l = timeBytes t ++ r := by
  unfold takeTime at h
  split at h <;> cases h
  simp only [timeBytes, List.cons_append, List.nil_append, List.cons.injEq]
  refine ⟨?_, ?_, ?_, ?_, trivial⟩
  all_goals
    apply BitVec.eq_of_getLsbD_eq
    intro k bound
    simp only [BitVec.getLsbD_extractLsb', BitVec.getLsbD_append]
    grind

theorem takePosCode_eq_ok {l r : List Byte} {c : BitVec 3} (h : takePosCode l = .ok (c, r)) :
    l = c.setWidth 8 :: r := by
  cases l with
  | nil => cases h
  | cons b l =>
    rw [takePosCode] at h
    split_ifs at h with small
    cases h
    congr 1
    apply BitVec.eq_of_toNat_eq
    simp only [BitVec.toNat_setWidth]
    omega

theorem takePayload_eq_ok {l r : List Byte} {p : Payload} (h : takePayload l = .ok (p, r)) :
    l = payloadBytes p ++ r := by
  induction l using takePayload.induct generalizing p r with
  | case1 => cases h
  | case2 => cases h; rfl
  | case3 f nonzero =>
    simp only [takePayload, if_neg nonzero] at h
    cases h
  | case4 b l => cases h; rfl
  | case5 b l q l' tail _ ih =>
    simp only [takePayload, tail] at h
    cases h
    exact congrArg (1 :: b :: ·) (ih tail)
  | case6 b l e tail _ _ =>
    simp only [takePayload, tail] at h
    cases h
  | case7 f b l nonzero notOne =>
    simp only [takePayload, if_neg nonzero, if_neg notOne] at h
    cases h

theorem withOperand_eq_ok {α : Type} {f : α → Instr} {o : Except DecodeError (α × List Byte)}
    {i : Instr} {r : List Byte} (h : withOperand f o = .ok (i, r)) :
    ∃ a, o = .ok (a, r) ∧ i = f a := by
  rcases o with e | ⟨a, r'⟩ <;> cases h
  exact ⟨a, rfl, rfl⟩

theorem decodeRawwr_eq_ok {l r : List Byte} {i : Instr} (h : decodeRawwr l = .ok (i, r)) :
    ∃ k v, l = k :: bitBytes v ++ r ∧ i = .rawwr k v := by
  cases l with
  | nil => cases h
  | cons k l =>
    obtain ⟨v, bit, rfl⟩ := withOperand_eq_ok h
    exact ⟨k, v, congrArg (k :: ·) (takeBit_eq_ok bit), rfl⟩

theorem decodeCycle_eq_ok {l r : List Byte} {i : Instr} (h : decodeCycle l = .ok (i, r)) :
    ∃ now pos, l = timeBytes now ++ [pos.setWidth 8] ++ r ∧ i = .cycle now pos := by
  unfold decodeCycle at h
  split at h
  case h_1 now l' time =>
    obtain ⟨pos, code, rfl⟩ := withOperand_eq_ok h
    refine ⟨now, pos, ?_, rfl⟩
    rw [takeTime_eq_ok time, takePosCode_eq_ok code, List.append_assoc, List.singleton_append]
  case h_2 => cases h

/-- A record's code byte is the number that selects the operation, its operands follow. -/
theorem record_eq {c : Byte} {n : Nat} {r bytes : List Byte} (code : c.toNat = n)
    (operands : r = bytes) : c :: r = BitVec.ofNat 8 n :: bytes := by
  rw [← code, BitVec.ofNat_toNat, BitVec.setWidth_eq, operands]

/-- Code by code (R92), what decodes as a host operation is the encoding of one. -/
theorem decodeHostop_eq_ok {l rest : List Byte} {i : Instr} (h : decodeHostop l = .ok (i, rest)) :
    l = encode i ++ rest ∧ inSpace i .hostop = true := by
  cases l with
  | nil => cases h
  | cons c r =>
    unfold decodeHostop at h
    dsimp only at h
    split at h
    case h_1 code | h_3 code | h_13 code | h_14 code | h_15 code | h_16 code =>
      cases h
      exact ⟨record_eq code rfl, rfl⟩
    case h_2 code | h_4 code | h_8 code | h_10 code =>
      obtain ⟨b, operand, rfl⟩ := withOperand_eq_ok h
      exact ⟨record_eq code (takeByte_eq_ok operand), rfl⟩
    case h_5 code =>
      obtain ⟨now, operand, rfl⟩ := withOperand_eq_ok h
      exact ⟨record_eq code (takeTime_eq_ok operand), rfl⟩
    case h_6 code =>
      obtain ⟨k, v, operands, rfl⟩ := decodeRawwr_eq_ok h
      exact ⟨record_eq code operands, rfl⟩
    case h_7 code =>
      obtain ⟨now, pos, operands, rfl⟩ := decodeCycle_eq_ok h
      exact ⟨record_eq code operands, rfl⟩
    case h_9 code | h_11 code =>
      obtain ⟨v, operand, rfl⟩ := withOperand_eq_ok h
      exact ⟨record_eq code (takeBit_eq_ok operand), rfl⟩
    case h_12 code =>
      obtain ⟨p, operand, rfl⟩ := withOperand_eq_ok h
      exact ⟨record_eq code (takePayload_eq_ok operand), rfl⟩
    case h_17 => cases h

theorem wellFormed_of_hostop {i : Instr} (host : inSpace i .hostop = true) :
    WellFormed i = true := by
  cases i with
  | enqueue p | rxIdleOther b | rxAwaitStxOther b | rxInFrameData b | rxAfterDleOther b
  | tokenInit k => simp [inSpace] at host
  | _ => rfl

/-- Settles O3: `decodeHostop_eq_ok`; the rows whose operands are restricted are in other spaces. -/
theorem hostDecodingExact : Obligations.HostDecodingExact := by
  intro l i rest decoded
  obtain ⟨bytes, host⟩ := decodeHostop_eq_ok decoded
  exact ⟨bytes, wellFormed_of_hostop host, host⟩

end Sys2Proof

/-! The step (R17, R92, R267): the operation of the oldest move, or none. -/

namespace Sys2Proof.Machine

/-! ### What the step runs -/

theorem step_of_operation {s : State} {m : Move} {r : List Move} {i : Instr}
    (oldest : s.pending = m :: r) (operation : m.operation = .ok i) :
    step s = exec i { s with pending := r } := by
  have fetched : fetch s = .ok (some (i, r)) := by
    rw [fetch, oldest]
    simp only [operation]
  rw [step, fetched]

theorem step_of_no_operation {s : State} {m : Move} {r : List Move} {e : DecodeError}
    (oldest : s.pending = m :: r) (none : m.operation = .error e) :
    step s = .refused (.badRecord e) := by
  have fetched : fetch s = .error e := by
    rw [fetch, oldest]
    simp only [none]
  rw [step, fetched]

theorem step_of_nothing_pending {s : State} (nothing : s.pending = []) : step s = .next s := by
  have fetched : fetch s = .ok none := by rw [fetch, nothing]
  rw [step, fetched]

/-- The operation of a move is a host operation, whoever makes it (R92). -/
theorem operation_hostop {m : Move} {i : Instr} (operation : m.operation = .ok i) :
    inSpace i .hostop = true := by
  cases m with
  | loop record => exact (decodeHostop_eq_ok (recordOp_ok.mp operation)).2
  | edge x v => cases operation; rfl

/-- All that a step which answers a next state can do: hold the state, or run one host operation on
the state without the oldest move. -/
theorem step_eq_next {s t : State} (h : step s = .next t) :
    (fetch s = .ok none ∧ t = s) ∨ ∃ (i : Instr) (r : List Move), inSpace i .hostop = true ∧
      fetch s = .ok (some (i, r)) ∧ exec i { s with pending := r } = .next t := by
  rcases fetch_cases s with
    ⟨nothing, fetched⟩ | ⟨m, r, oldest, ⟨i, operation, fetched⟩ | ⟨e, none, _⟩⟩
  · rw [step_of_nothing_pending nothing] at h
    cases h
    exact .inl ⟨fetched, rfl⟩
  · rw [step_of_operation oldest operation] at h
    exact .inr ⟨i, r, operation_hostop operation, fetched, h⟩
  · rw [step_of_no_operation oldest none] at h
    cases h

/-- Settles O4: both kinds of move issue the operation that `step_of_operation` runs. -/
theorem stepRunsDecoded : Obligations.StepRunsDecoded :=
  ⟨fun _ _ _ _ oldest decoded => step_of_operation oldest (recordOp_ok.mpr decoded),
    fun _ x v _ oldest => step_of_operation oldest (operation_edge x v)⟩

/-- Settles O5: an empty list, and the two ways a record holds no operation. -/
theorem stepWithoutOperation : Obligations.StepWithoutOperation := by
  refine ⟨fun _ => step_of_nothing_pending, fun s record r oldest => ⟨fun e bad => ?_,
    fun i b l more => ?_⟩⟩
  · have none : (Move.loop record).operation = .error e := by
      simp only [Move.operation, recordOp, bad]
    exact step_of_no_operation oldest none
  · have none : (Move.loop record).operation = .error .trailing := by
      simp only [Move.operation, recordOp, more]
    exact step_of_no_operation oldest none

/-! ### A table word placed for the fetch -/

/-- The move of a table word issues the operation the decoder reads from it: the record without the
bytes past it is the operation's encoding. -/
theorem wordMove_operation {nbits w : Nat} {i : Instr} (read : decodeTableWord nbits w = some i) :
    (wordMove nbits w).operation = .ok i := by
  cases decoded : decode .hostop (tableBytes nbits w) with
  | error e => simp [decodeTableWord, decoded] at read
  | ok found =>
    obtain ⟨i', rest⟩ := found
    have same : i' = i := by simpa [decodeTableWord, decoded] using read
    subst same
    obtain ⟨bytes, host⟩ := decodeHostop_eq_ok decoded
    have record : (tableBytes nbits w).take ((tableBytes nbits w).length - rest.length)
        = encode i' := by
      rw [bytes]
      simp
    have whole : decode .hostop (encode i') = .ok (i', []) := by
      simpa [decode] using decodeHostop_encode [] host
    simp only [wordMove, decoded, record]
    exact moveOf_operation whole

/-- Settles O6: the placed word is the oldest move, and its operation is the one read. -/
theorem placedWordRuns : Obligations.PlacedWordRuns := by
  intro s nbits w i read
  exact step_of_operation (s := s.withFetchWord nbits w) rfl (wordMove_operation read)

end Sys2Proof.Machine

/-! The frame decoder over whole runs (R91, R114, R129 to R132): rows of the byte map, totality and
the decoder's invariant, and frames received from `Idle`. -/

namespace Sys2Proof.Machine

open Sys2Proof.Safety

/-! ### Rows of the byte map (R91) -/

/-- Settles O19: in each decoder state the byte takes one row, and the step lemma of that row gives
both sides the same answer. -/
theorem rxByteTakesItsRow : Obligations.RxByteTakesItsRow := by
  intro b s
  have agree : ∀ {row o}, classify s.rxState s.rxCk b = row →
      exec (.rxbyte b) s = o ∧ exec row s = o →
      exec (.rxbyte b) s = exec (classify s.rxState s.rxCk b) s := by
    intro row o taken both
    rw [taken, both.1, both.2]
  cases state : s.rxState with
  | idle =>
    rw [state] at agree
    by_cases dle : b = 0x10
    · subst dle; exact agree rfl (rxIdleDle_step state)
    · exact agree (if_neg dle) (rxIdleOther_step state dle)
  | awaitStx =>
    rw [state] at agree
    by_cases stx : b = 0x02
    · subst stx; exact agree rfl (rxAwaitStxStx_step state)
    by_cases dle : b = 0x10
    · subst dle; exact agree rfl (rxAwaitStxDle_step state)
    · exact agree ((if_neg stx).trans (if_neg dle)) (rxAwaitStxOther_step state stx dle)
  | inFrame =>
    rw [state] at agree
    by_cases dle : b = 0x10
    · subst dle; exact agree rfl (rxInFrameDle_step state)
    · exact agree (if_neg dle) (rxInFrameData_step state dle)
  | afterDle =>
    rw [state] at agree
    by_cases dle : b = 0x10
    · subst dle; exact agree rfl (rxAfterDleDle_step state)
    by_cases etx : b = 0x03
    · subst etx; exact agree rfl (rxAfterDleEtx_step state)
    · exact agree ((if_neg dle).trans (if_neg etx)) (rxAfterDleOther_step state dle etx)
  | awaitChecksum =>
    rw [state] at agree
    by_cases good : b = s.rxCk
    · subst good; exact agree (if_pos rfl) (rxAwaitChecksumGood_step state)
    · exact agree (if_neg good) (rxAwaitChecksumBad_step state good)

/-- Settles O20: the meaning of every row of the byte map is guarded by the byte taking that row. -/
theorem rowsElsewhereDoNothing : Obligations.RowsElsewhereDoNothing := by
  intro i b s st ck wire byte elsewhere
  cases i with
  | rxIdleDle | rxIdleOther _ | rxAwaitStxStx | rxAwaitStxDle | rxAwaitStxOther _ | rxInFrameDle
  | rxInFrameData _ | rxAfterDleDle | rxAfterDleEtx | rxAfterDleOther _ | rxAwaitChecksumGood _
  | rxAwaitChecksumBad _ =>
    cases byte
    exact if_neg elsewhere
  | _ => simp [inSpace] at wire

/-! ### The one fault (R63) -/

theorem appendByte_eq_fault (v : Byte) (s : State) (r : Fault) :
    appendByte v s = .fault r ↔ r = .rxBufIndex s.rxLen ∧ Config.maxPayload ≤ s.rxLen := by
  rcases appendByte_cases v s with ⟨room, e⟩ | ⟨last, e⟩ | ⟨full, e⟩ <;> rw [e]
  · exact iff_of_false (by simp) (by omega)
  · exact iff_of_false (by simp) (by omega)
  · simp [full, eq_comm]

/-- Settles O22: only the rows of `InFrame` and `AfterDle` that append can fault, where
`appendByte_eq_fault` says when. -/
theorem rxFaultsOnlyPastBuffer : Obligations.RxFaultsOnlyPastBuffer := by
  intro b s r
  change receiveByte b s = .fault r ↔ _
  cases state : s.rxState with
  | idle => simp [receiveByte_idle b state]
  | awaitStx => simp [receiveByte_awaitStx b state]
  | awaitChecksum => simp [receiveByte_awaitChecksum b state]
  | inFrame =>
    by_cases dle : b = 16#8
    · subst dle
      rw [show receiveByte 16#8 s = _ from (rxInFrameDle_step state).1]
      simp
    · rw [show receiveByte b s = _ from (rxInFrameData_step state dle).1, appendByte_eq_fault]
      simp [dle]
  | afterDle =>
    by_cases dle : b = 16#8
    · subst dle
      rw [show receiveByte 16#8 s = _ from (rxAfterDleDle_step state).1, appendByte_eq_fault]
      simp
    by_cases etx : b = 3#8
    · subst etx
      rw [show receiveByte 3#8 s = _ from (rxAfterDleEtx_step state).1]
      simp
    · rw [show receiveByte b s = _ from (rxAfterDleOther_step state dle etx).1]
      simp [dle]

/-! ### All that a received byte can do (R122 to R128) -/

/-- The effects of a received byte, by what they do to the frame in progress. -/
inductive RxEffect (s : State) : State → Prop
  /-- The decoder's state alone moves, and never into a frame. -/
  | moved (st : RxState) (inside : midFrame { s with rxState := st } = true → midFrame s = true) :
    RxEffect s { s with rxState := st }
  /-- A frame begins, with nothing collected (R123). -/
  | started : RxEffect s { s with rxState := .inFrame, rxLen := 0, rxCk := 0 }
  /-- A byte is appended and the frame goes on (R124 to R126). -/
  | appended (v : Byte) (inside : midFrame s = true) (room : s.rxLen + 1 < Config.maxPayload) :
    RxEffect s { s with
      rxState := .inFrame, rxCk := if v = Config.dle then s.rxCk else s.rxCk ^^^ v,
      rxBuf := Memory.write s.rxBuf s.rxLen v, rxLen := s.rxLen + 1 }
  /-- The last byte the buffer holds is appended, and the guard discards the frame (R126). -/
  | oversized (v ck : Byte) (last : s.rxLen + 1 = Config.maxPayload) :
    RxEffect s { s with
      rxState := .idle, rxCk := ck, rxBuf := Memory.write s.rxBuf s.rxLen v,
      rxLen := s.rxLen + 1, out := s.out ++ [.diag .eOversize] }
  /-- The frame is rejected with an error event (R125, R127). -/
  | rejected (e : Event) (inside : midFrame s = true) :
    RxEffect s { s with rxState := .idle, out := s.out ++ [.diag e] }
  /-- The collected payload is enqueued (R127). -/
  | delivered (inside : midFrame s = true) :
    RxEffect s { enqueue s.rxPayload s with rxState := .idle }

theorem RxEffect.stays (s : State) : RxEffect s s := .moved s.rxState id

/-- With room in the buffer, what `Append` of a data byte leads to (R124 to R126). -/
theorem appendByte_effect (v : Byte) {s u : State} (inside : midFrame s = true)
    (room : s.rxLen < Config.maxPayload)
    (taken : u = { s with
      rxState := .inFrame, rxCk := if v = Config.dle then s.rxCk else s.rxCk ^^^ v }) :
    ∃ t : State, appendByte v u = .next t ∧ RxEffect s t := by
  subst taken
  rcases appendByte_cases v { s with
      rxState := .inFrame, rxCk := if v = Config.dle then s.rxCk else s.rxCk ^^^ v } with
    ⟨below, e⟩ | ⟨last, e⟩ | ⟨full, _⟩
  · exact ⟨_, e, .appended v inside below⟩
  · exact ⟨_, e, .oversized v _ last⟩
  · exact absurd room (Nat.not_lt.mpr full)

/-- With room for a byte inside a frame, every received byte is answered by a next state, by one of
the effects (R129). -/
theorem receiveByte_effect (b : Byte) {s : State}
    (room : midFrame s = true → s.rxLen < Config.maxPayload) :
    ∃ t : State, receiveByte b s = .next t ∧ RxEffect s t := by
  cases state : s.rxState with
  | idle =>
    by_cases dle : b = 0x10
    · subst dle
      exact ⟨_, (rxIdleDle_step state).1, .moved .awaitStx (by simp [midFrame])⟩
    · exact ⟨_, (rxIdleOther_step state dle).1, .stays s⟩
  | awaitStx =>
    by_cases stx : b = 0x02
    · subst stx
      exact ⟨_, (rxAwaitStxStx_step state).1, .started⟩
    by_cases dle : b = 0x10
    · subst dle
      exact ⟨_, (rxAwaitStxDle_step state).1, .stays s⟩
    · exact ⟨_, (rxAwaitStxOther_step state stx dle).1, .moved .idle (by simp [midFrame])⟩
  | inFrame =>
    have inside : midFrame s = true := by simp [midFrame, state]
    by_cases dle : b = 0x10
    · subst dle
      exact ⟨_, (rxInFrameDle_step state).1, .moved .afterDle fun _ => inside⟩
    · rw [show receiveByte b s = _ from (rxInFrameData_step state dle).1]
      exact appendByte_effect b inside (room inside) (by rw [if_neg dle, ← state])
  | afterDle =>
    have inside : midFrame s = true := by simp [midFrame, state]
    by_cases dle : b = 0x10
    · subst dle
      rw [show receiveByte _ s = _ from (rxAfterDleDle_step state).1]
      exact appendByte_effect 0x10 inside (room inside) (by rw [if_pos rfl])
    by_cases etx : b = 0x03
    · subst etx
      exact ⟨_, (rxAfterDleEtx_step state).1, .moved .awaitChecksum fun _ => inside⟩
    · exact ⟨_, (rxAfterDleOther_step state dle etx).1, .rejected _ inside⟩
  | awaitChecksum =>
    have inside : midFrame s = true := by simp [midFrame, state]
    by_cases good : b = s.rxCk
    · subst good
      exact ⟨_, (rxAwaitChecksumGood_step state).1, .delivered inside⟩
    · exact ⟨_, (rxAwaitChecksumBad_step state good).1, .rejected _ inside⟩

/-! ### Room, and the output along a run (R129, R130) -/

/-- Inside a frame the buffer has room for one more byte: what totality needs of R130. -/
def Room (s : State) : Prop := midFrame s = true → s.rxLen < Config.maxPayload

theorem room_of_idle {s : State} (idle : s.rxState = .idle) : Room s := by
  simp [Room, midFrame, idle]

theorem RxEffect.room {s t : State} (effect : RxEffect s t) (h : Room s) : Room t := by
  cases effect with
  | moved st inside => exact fun inFrame => h (inside inFrame)
  | started => exact fun _ => Nat.zero_lt_succ 127
  | appended v _ room => exact fun _ => room
  | oversized | rejected | delivered => exact room_of_idle rfl

theorem RxEffect.out_prefix {s t : State} (effect : RxEffect s t) : s.out <+: t.out := by
  cases effect with
  | moved | started | appended => exact List.prefix_refl _
  | oversized | rejected => exact List.prefix_append ..
  | delivered =>
    rcases enqueue_cases s.rxPayload s with ⟨_, e⟩ | ⟨_, e⟩
    all_goals
      rw [e]
      exact List.prefix_append ..

/-- What every effect of a received byte keeps, a run of bytes keeps, and the run is answered by a
next state (R100, R129). -/
theorem feed_keeps {P : State → Prop} (room : ∀ s, P s → Room s)
    (keeps : ∀ s t, RxEffect s t → P s → P t) (l : List Byte) {s : State} (h : P s) :
    ∃ t : State, feed l s = .next t ∧ P t := by
  induction l generalizing s with
  | nil => exact ⟨s, rfl, h⟩
  | cons b r ih =>
    obtain ⟨u, first, effect⟩ := receiveByte_effect b (room s h)
    obtain ⟨t, rest, last⟩ := ih (keeps s u effect h)
    exact ⟨t, by rw [feed, first, andThen_next, rest], last⟩

/-! ### The decoder's invariant (R130) -/

theorem decoderInv_of_not_midFrame {s : State} (wf : Memory.wf s.rxBuf)
    (lenLe : s.rxLen ≤ Config.maxPayload) (outside : midFrame s = false) : DecoderInv s := by
  have absent {p : Prop} (inside : midFrame s = true) : p := by simp [outside] at inside
  exact ⟨wf, lenLe, absent, absent, absent⟩

theorem plainXor_append (p : Payload) (v : Byte) :
    plainXor (p ++ [v]) = if v = Config.dle then plainXor p else plainXor p ^^^ v := by
  rw [plainXor, List.filter_append, xorBytes_append]
  split_ifs with dle
  · rw [List.filter_cons_of_neg (by simp [dle])]
    exact BitVec.xor_zero
  · rw [List.filter_cons_of_pos (by simpa using dle), List.filter_nil, xorBytes_cons]
    exact congrArg (plainXor p ^^^ ·) BitVec.xor_zero

theorem RxEffect.keeps_decoderInv {s t : State} (effect : RxEffect s t) (h : DecoderInv s) :
    DecoderInv t := by
  cases effect with
  | moved st inside =>
    exact ⟨h.wf, h.lenLe, fun m => h.room (inside m), fun m => h.ckEq (inside m),
      fun m => h.written (inside m)⟩
  | started =>
    exact ⟨h.wf, Nat.zero_le 128, fun _ => Nat.zero_lt_succ 127, fun _ => rfl,
      fun _ _ none => by cases none⟩
  | appended v inside room =>
    refine ⟨Memory.wf_write _ _ _ h.wf (h.room inside), room.le, fun _ => room, fun _ => ?ck,
      fun _ a held => ?written⟩
    case ck =>
      have payload := rxPayload_append s v
      change (if v = Config.dle then s.rxCk else s.rxCk ^^^ v) = plainXor (State.rxPayload
        { s with rxBuf := Memory.write s.rxBuf s.rxLen v, rxLen := s.rxLen + 1 })
      rw [payload, plainXor_append, h.ckEq inside]
    case written =>
      by_cases new : a = s.rxLen
      · subst new; simp
      · have old : a < s.rxLen := by simp at held; omega
        simpa [new] using h.written inside a old
  | oversized v ck last =>
    exact decoderInv_of_not_midFrame (Memory.wf_write _ _ _ h.wf (by omega)) last.le rfl
  | rejected e _ => exact decoderInv_of_not_midFrame h.wf h.lenLe rfl
  | delivered =>
    rw [enqueue_frame]
    exact decoderInv_of_not_midFrame h.wf h.lenLe rfl

/-- Settles O21: the invariant gives the room that totality needs, and every effect keeps it. -/
theorem decoderTotal : Obligations.DecoderTotal := by
  intro s inv
  refine ⟨fun b => ?byte, fun p => ?frame⟩
  case byte =>
    obtain ⟨t, answer, effect⟩ := receiveByte_effect b inv.room
    exact ⟨t, answer, effect.keeps_decoderInv inv⟩
  case frame =>
    exact feed_keeps (fun _ => DecoderInv.room) (fun _ _ effect => effect.keeps_decoderInv)
      (frameOf p) inv

/-! ### A stuffed region received inside a frame (R124 to R126) -/

theorem checksum_append (p q : Payload) : checksum (p ++ q) = checksum p ^^^ checksum q := by
  rw [checksum, stuff_append, xorBytes_append, checksum, checksum]

/-- The state with one payload byte collected, the oversize guard not yet tested. -/
def collectByte (s : State) (b : Byte) : State :=
  { s with
    rxBuf := Memory.write s.rxBuf s.rxLen b, rxLen := s.rxLen + 1,
    rxCk := s.rxCk ^^^ checksum [b] }

/-- The state with a payload collected. -/
def collect (s : State) (p : Payload) : State := p.foldl collectByte s

theorem collect_cons (s : State) (b : Byte) (p : Payload) :
    collect s (b :: p) = collect (collectByte s b) p := rfl

/-- Collecting writes the length, the checksum and the buffer only. -/
theorem collect_frame (s : State) (p : Payload) :
    collect s p = { s with
      rxLen := s.rxLen + p.length, rxCk := s.rxCk ^^^ checksum p,
      rxBuf := (collect s p).rxBuf } := by
  induction p generalizing s with
  | nil =>
    have same : s.rxCk ^^^ checksum [] = s.rxCk := BitVec.xor_zero
    rw [same]
    rfl
  | cons b r ih =>
    have len : s.rxLen + (b :: r).length = (collectByte s b).rxLen + r.length := by
      simp only [List.length_cons, collectByte]
      omega
    have ck : s.rxCk ^^^ checksum (b :: r) = (collectByte s b).rxCk ^^^ checksum r := by
      rw [← List.singleton_append, checksum_append, ← BitVec.xor_assoc]
      rfl
    rw [collect_cons, len, ck]
    exact ih (collectByte s b)

theorem collect_rxPayload (s : State) (p : Payload) :
    (collect s p).rxPayload = s.rxPayload ++ p := by
  induction p generalizing s with
  | nil => exact (List.append_nil _).symm
  | cons b r ih =>
    have one : (collectByte s b).rxPayload = s.rxPayload ++ [b] := rxPayload_append s b
    rw [collect_cons, ih, one, List.append_assoc, List.singleton_append]

theorem feed_cons {b : Byte} {r : List Byte} {s u : State} (first : receiveByte b s = .next u) :
    feed (b :: r) s = feed r u := by
  rw [feed, first, andThen_next]

theorem feed_singleton (b : Byte) (s : State) : feed [b] s = receiveByte b s := by
  rw [feed]
  cases receiveByte b s <;> rfl

theorem appendByte_of_room (v : Byte) {s : State} (room : s.rxLen < Config.maxPayload) :
    appendByte v s = .next (oversizeGuard
      { s with rxBuf := Memory.write s.rxBuf s.rxLen v, rxLen := s.rxLen + 1 }) := by
  rw [appendByte, storeRxByte, if_pos room, andThen_next]

/-- The bytes of one payload byte, escaped or not, append it; then the guard is tested. -/
theorem feed_stuff_singleton (b : Byte) {s : State} (inFrame : s.rxState = .inFrame)
    (room : s.rxLen < Config.maxPayload) :
    feed (stuff [b]) s = .next (oversizeGuard (collectByte s b)) := by
  have append : appendByte b { s with rxCk := s.rxCk ^^^ checksum [b] } =
      .next (oversizeGuard (collectByte s b)) := appendByte_of_room b room
  rw [← append]
  by_cases dle : b = Config.dle
  · subst dle
    have escaped : ({ s with rxState := .inFrame } : State) =
        { s with rxCk := s.rxCk ^^^ checksum [Config.dle] } := by
      rw [← inFrame, show s.rxCk ^^^ checksum [Config.dle] = s.rxCk from BitVec.xor_zero]
    calc feed (stuff [Config.dle]) s
        = feed [Config.dle] { s with rxState := .afterDle } :=
          feed_cons (rxInFrameDle_step inFrame).1
      _ = receiveByte Config.dle { s with rxState := .afterDle } := feed_singleton ..
      _ = appendByte Config.dle { s with rxState := .inFrame } :=
          (rxAfterDleDle_step (s := { s with rxState := .afterDle }) rfl).1
      _ = _ := by rw [escaped]
  · have single : checksum [b] = b := by
      rw [checksum_cons_of_ne [] dle]
      exact BitVec.xor_zero
    calc feed (stuff [b]) s
        = feed [b] s := by rw [stuff_of_ne b [] dle]; rfl
      _ = receiveByte b s := feed_singleton b s
      _ = appendByte b { s with rxCk := s.rxCk ^^^ b } := (rxInFrameData_step inFrame dle).1
      _ = _ := by rw [single]

/-- A whole stuffed region that fits the buffer is collected. -/
theorem feed_stuff (p : Payload) {s : State} (inFrame : s.rxState = .inFrame)
    (fits : s.rxLen + p.length < Config.maxPayload) : feed (stuff p) s = .next (collect s p) := by
  induction p generalizing s with
  | nil => rfl
  | cons b r ih =>
    rw [List.length_cons] at fits
    have below : (collectByte s b).rxLen ≠ Config.maxPayload := by
      change s.rxLen + 1 ≠ _
      omega
    have first : feed (stuff [b]) s = .next (collectByte s b) := by
      rw [feed_stuff_singleton b inFrame (by omega), oversizeGuard, if_neg below]
    have rest : (collectByte s b).rxLen + r.length < Config.maxPayload := by
      change s.rxLen + 1 + _ < _
      omega
    rw [← List.singleton_append, stuff_append, feed_append, first, andThen_next,
      ih (s := collectByte s b) inFrame rest]
    rfl

/-! ### Whole frames received in `Idle` (R114, R132) -/

/-- The state inside a frame that has just begun. -/
def frameStarted (s : State) : State := { s with rxState := .inFrame, rxLen := 0, rxCk := 0 }

theorem feed_start {s : State} (idle : s.rxState = .idle) :
    feed [Config.dle, Config.stx] s = .next (frameStarted s) := by
  rw [feed, show receiveByte Config.dle s = _ from (rxIdleDle_step idle).1]
  rfl

theorem feed_end {s : State} (inFrame : s.rxState = .inFrame) :
    feed [Config.dle, Config.etx] s = .next { s with rxState := .awaitChecksum } := by
  rw [feed, show receiveByte Config.dle s = _ from (rxInFrameDle_step inFrame).1]
  rfl

/-- All of a frame but its checksum, for a payload the decoder accepts: the payload is held. -/
theorem feed_to_checksum (p : Payload) {s : State} (idle : s.rxState = .idle)
    (short : p.length ≤ 127) :
    ∃ u : State,
      feed ([Config.dle, Config.stx] ++ stuff p ++ [Config.dle, Config.etx]) s = .next u ∧
      u.rxPayload = p ∧
      u = { s with
        rxState := .awaitChecksum, rxLen := p.length, rxCk := checksum p, rxBuf := u.rxBuf } := by
  have fits : (frameStarted s).rxLen + p.length < Config.maxPayload := by
    change 0 + _ < 128
    omega
  have held := collect_frame (frameStarted s) p
  have still : (collect (frameStarted s) p).rxState = .inFrame := by rw [held]; rfl
  have len : (frameStarted s).rxLen + p.length = p.length := Nat.zero_add _
  have ck : (frameStarted s).rxCk ^^^ checksum p = checksum p := BitVec.zero_xor
  refine ⟨{ collect (frameStarted s) p with rxState := .awaitChecksum }, ?fed,
    collect_rxPayload (frameStarted s) p, ?frame⟩
  case fed =>
    rw [feed_append, feed_append, feed_start idle, andThen_next, feed_stuff p rfl fits,
      andThen_next, feed_end still]
  case frame =>
    rw [len, ck] at held
    rw [held]
    rfl

/-- `ENQUEUE` neither reads nor writes the decoder's registers. -/
theorem enqueue_decoder (p : Payload) (s : State) (st : RxState) (len : Nat) (ck : Byte)
    (buf : Memory) :
    enqueue p { s with rxState := st, rxLen := len, rxCk := ck, rxBuf := buf } =
      { enqueue p s with rxState := st, rxLen := len, rxCk := ck, rxBuf := buf } := by
  have due : rxlogDue p (enqueueStore p
      { s with rxState := st, rxLen := len, rxCk := ck, rxBuf := buf }) = rxlogDue p s := rfl
  have due' : rxlogDue p (enqueueStore p s) = rxlogDue p s := rfl
  rw [enqueue, enqueue, enqueueLog, enqueueLog, due, due']
  cases rxlogDue p s <;> rfl

theorem feed_frameOf (p : Payload) {s : State} (idle : s.rxState = .idle) (short : p.length ≤ 127) :
    ∃ buf : Memory, feed (frameOf p) s = .next { enqueue p s with
      rxState := .idle, rxLen := p.length, rxCk := checksum p, rxBuf := buf } := by
  obtain ⟨u, fed, payload, frame⟩ := feed_to_checksum p idle short
  generalize u.rxBuf = buf at frame
  subst frame
  have good := (rxAwaitChecksumGood_step (s := { s with
    rxState := .awaitChecksum, rxLen := p.length, rxCk := checksum p, rxBuf := buf }) rfl).1
  rw [payload, enqueue_decoder] at good
  refine ⟨buf, ?_⟩
  rw [frameOf, feed_append, fed, andThen_next, feed_singleton]
  exact good

/-- Settles O11: the frame's checksum is the one collected, so the payload collected is enqueued. -/
theorem frameRoundTrip : Obligations.FrameRoundTrip := by
  intro s p idle short
  obtain ⟨buf, answer⟩ := feed_frameOf p idle short
  exact ⟨_, _, answer, exec_enqueue p s, rfl⟩

theorem feed_bad_checksum (p : Payload) {ck : Byte} {s : State} (idle : s.rxState = .idle)
    (short : p.length ≤ 127) (bad : ck ≠ checksum p) :
    ∃ buf : Memory,
      feed ([Config.dle, Config.stx] ++ stuff p ++ [Config.dle, Config.etx] ++ [ck]) s =
        .next { s with
          rxState := .idle, rxLen := p.length, rxCk := checksum p, rxBuf := buf,
          out := s.out ++ [.diag (.eCksum ck (checksum p))] } := by
  obtain ⟨u, fed, _, frame⟩ := feed_to_checksum p idle short
  generalize u.rxBuf = buf at frame
  subst frame
  refine ⟨buf, ?_⟩
  rw [feed_append, fed, andThen_next, feed_singleton]
  exact (rxAwaitChecksumBad_step (s := { s with
    rxState := .awaitChecksum, rxLen := p.length, rxCk := checksum p, rxBuf := buf }) rfl bad).1

/-- The 128th byte of a payload raises `E_OVERSIZE` and discards the frame (R126). -/
theorem feed_oversized (p : Payload) (b : Byte) {s : State} (idle : s.rxState = .idle)
    (full : p.length = 127) :
    ∃ t : State, feed ([Config.dle, Config.stx] ++ stuff p ++ stuff [b]) s = .next t ∧
      t.rxState = .idle ∧ t.out = s.out ++ [.diag .eOversize] := by
  have held := collect_frame (frameStarted s) p
  have fits : (frameStarted s).rxLen + p.length < Config.maxPayload := by
    change 0 + _ < 128
    omega
  have still : (collect (frameStarted s) p).rxState = .inFrame := by rw [held]; rfl
  have len : (collect (frameStarted s) p).rxLen = 127 := by
    rw [held]
    change 0 + _ = _
    omega
  have last : (collectByte (collect (frameStarted s) p) b).rxLen = Config.maxPayload := by
    change _ + 1 = 128
    omega
  refine ⟨oversizeGuard (collectByte (collect (frameStarted s) p) b), ?_, ?_⟩
  · rw [feed_append, feed_append, feed_start idle, andThen_next, feed_stuff p rfl fits,
      andThen_next, feed_stuff_singleton b still (by rw [len]; decide)]
  · rw [oversizeGuard, if_pos last]
    refine ⟨rfl, ?_⟩
    change (collect (frameStarted s) p).out ++ _ = _
    rw [held]
    rfl

/-- Settles O12: the 128th byte raises `E_OVERSIZE` (`feed_oversized`), and the bytes after it, from
`Idle`, are all answered and only append to the output. -/
theorem longFrameRaisesOversize : Obligations.LongFrameRaisesOversize := by
  intro s p idle long
  obtain ⟨q, b, r, split, full⟩ : ∃ q b r, p = q ++ [b] ++ r ∧ q.length = 127 := by
    refine ⟨p.take 127, p[127], p.drop 128, ?_, by simp; omega⟩
    rw [List.take_append_getElem, List.take_append_drop]
  have bytes : frameOf p = ([Config.dle, Config.stx] ++ stuff q ++ stuff [b]) ++
      (stuff r ++ [Config.dle, Config.etx] ++ [checksum p]) := by
    have region : stuff p = stuff q ++ stuff [b] ++ stuff r := by
      rw [split, stuff_append, stuff_append]
    simp only [frameOf, region, List.append_assoc]
  obtain ⟨u, first, uIdle, uOut⟩ := feed_oversized q b idle full
  obtain ⟨t, rest, _, grows⟩ := feed_keeps (P := fun v => Room v ∧ u.out <+: v.out)
    (fun _ h => h.1)
    (fun _ _ effect h => ⟨effect.room h.1, h.2.trans effect.out_prefix⟩)
    (stuff r ++ [Config.dle, Config.etx] ++ [checksum p])
    (s := u) ⟨room_of_idle uIdle, List.prefix_refl _⟩
  refine ⟨t, ?_, uOut ▸ grows⟩
  change feed (frameOf p) s = _
  rw [bytes, feed_append, first, andThen_next, rest]

/-- A byte of a stuffed region that is no `DLE` stands for a payload byte of its own (R82). -/
theorem stuff_eq_append_cons {p : Payload} {pre post : List Byte} {b : Byte} (h : b ≠ Config.dle)
    (split : stuff p = pre ++ b :: post) :
    ∃ q r, p = q ++ b :: r ∧ pre = stuff q ∧ post = stuff r := by
  induction p generalizing pre with
  | nil => simp [stuff] at split
  | cons a p ih =>
    by_cases dle : a = Config.dle
    · subst dle
      rcases pre with _ | ⟨x, _ | ⟨y, pre⟩⟩
      · exact absurd (List.cons.inj split).1.symm h
      · exact absurd (List.cons.inj (List.cons.inj split).2).1.symm h
      · obtain ⟨rfl, rest⟩ := List.cons.inj split
        obtain ⟨rfl, tail⟩ := List.cons.inj rest
        obtain ⟨q, r, rfl, rfl, rfl⟩ := ih tail
        exact ⟨Config.dle :: q, r, rfl, rfl, rfl⟩
    · rw [stuff_of_ne a p dle] at split
      rcases pre with _ | ⟨x, pre⟩
      · obtain ⟨rfl, rfl⟩ := List.cons.inj split
        exact ⟨[], p, rfl, rfl, rfl⟩
      · obtain ⟨rfl, tail⟩ := List.cons.inj split
        obtain ⟨q, r, rfl, rfl, rfl⟩ := ih tail
        exact ⟨a :: q, r, rfl, (stuff_of_ne a q dle).symm, rfl⟩

theorem checksum_changed (q r : Payload) {b c : Byte} (hb : b ≠ Config.dle) (hc : c ≠ Config.dle) :
    checksum (q ++ c :: r) = checksum (q ++ b :: r) ^^^ b ^^^ c := by
  rw [checksum_append, checksum_append, checksum_cons_of_ne r hb, checksum_cons_of_ne r hc]
  generalize checksum q = x
  generalize checksum r = y
  grind

/-- Two bytes that differ do not cancel. -/
theorem ne_xor_xor_of_ne (x : Byte) {b c : Byte} (differs : c ≠ b) : x ≠ x ^^^ b ^^^ c := by
  intro same
  have cancel : b ^^^ c = 0#8 := by
    simpa [← BitVec.xor_assoc] using (congrArg (x ^^^ ·) same).symm
  exact differs (BitVec.xor_eq_zero_iff.mp cancel).symm

/-- Settles O13: the changed region is the stuffed region of the payload with that byte changed,
whose checksum is another. -/
theorem changedByteRejected : Obligations.ChangedByteRejected := by
  intro s p pre post b c idle short split hb hc differs
  obtain ⟨q, r, rfl, rfl, rfl⟩ := stuff_eq_append_cons hb split
  have ck := checksum_changed q r hb hc
  have bad : checksum (q ++ b :: r) ≠ checksum (q ++ c :: r) := ck ▸ ne_xor_xor_of_ne _ differs
  have bytes : [0x10, 0x02] ++ stuff q ++ c :: stuff r ++ [0x10, 0x03, checksum (q ++ b :: r)] =
      [Config.dle, Config.stx] ++ stuff (q ++ c :: r) ++ [Config.dle, Config.etx] ++
        [checksum (q ++ b :: r)] := by
    simp only [stuff_append, stuff_of_ne c r hc, List.append_assoc, List.cons_append,
      List.nil_append]
  have fits : (q ++ c :: r).length ≤ 127 := by simpa using short
  obtain ⟨buf, answer⟩ := feed_bad_checksum (q ++ c :: r) idle fits bad
  rw [← bytes, ← runInstrs_rxbyte, ck] at answer
  exact ⟨_, answer, by rw [idle]⟩

end Sys2Proof.Machine

/-! Queue, sequencer and sensors over runs of operations (R148, R156, R157, R162, R176). -/

namespace Sys2Proof.Machine

open Sys2Proof.Safety

/-! ### The queue bound (R148) -/

theorem enqueue_cfg (p : Payload) (s : State) : (enqueue p s).cfg = s.cfg := by rw [enqueue_frame]

/-- A queue within its capacity stays within it, and keeps its newest entries. -/
theorem enqueue_q_newest (p : Payload) {s : State} (capPos : 1 ≤ s.cfg.queueCap)
    (bound : s.q.length ≤ s.cfg.queueCap) :
    (enqueue p s).q = (s.q ++ [p]).drop ((s.q ++ [p]).length - s.cfg.queueCap) := by
  rw [enqueue_q, enqueueStore_q, List.length_append, List.length_singleton]
  split_ifs with full
  · have one : s.q.length + 1 - s.cfg.queueCap = 1 := by omega
    rw [one, List.drop_append_of_le_length (by omega)]
  · have none : s.q.length + 1 - s.cfg.queueCap = 0 := by omega
    rw [none, List.drop_zero]

theorem enqueue_q_length_le (p : Payload) {s : State} (capPos : 1 ≤ s.cfg.queueCap)
    (bound : s.q.length ≤ s.cfg.queueCap) : (enqueue p s).q.length ≤ s.cfg.queueCap := by
  rw [enqueue_q_newest p capPos bound]
  simp only [List.length_drop, List.length_append, List.length_singleton]
  omega

/-- Dropping the entries too old before more arrive drops the same entries. -/
theorem drop_newest_append (l r : List Payload) (cap : Nat) :
    (l.drop (l.length - cap) ++ r).drop ((l.drop (l.length - cap) ++ r).length - cap) =
      (l ++ r).drop ((l ++ r).length - cap) := by
  have old : l.length - cap ≤ l.length := Nat.sub_le ..
  rw [← List.drop_append_of_le_length old, List.drop_drop]
  congr 1
  simp only [List.length_drop, List.length_append]
  omega

/-- Any number of enqueues from a queue within its capacity. -/
theorem runInstrs_enqueue (ps : List Payload) {s : State} (capPos : 1 ≤ s.cfg.queueCap)
    (bound : s.q.length ≤ s.cfg.queueCap) :
    ∃ t : State, runInstrs (ps.map .enqueue) s = .next t ∧
      t.q = (s.q ++ ps).drop ((s.q ++ ps).length - s.cfg.queueCap) ∧
      t.out.filter isNewMsg = s.out.filter isNewMsg ++ ps.map .newMsg := by
  induction ps generalizing s with
  | nil =>
    have none : s.q.length - s.cfg.queueCap = 0 := by omega
    exact ⟨s, rfl, by simp [none], by simp⟩
  | cons p r ih =>
    have cfg := enqueue_cfg p s
    obtain ⟨t, run, queue, announced⟩ := ih (s := enqueue p s) (by rwa [cfg])
      (by rw [cfg]; exact enqueue_q_length_le p capPos bound)
    refine ⟨t, ?_, ?_, ?_⟩
    · rw [List.map_cons, runInstrs, exec_enqueue, andThen_next, run]
    · rw [queue, cfg, enqueue_q_newest p capPos bound, drop_newest_append, List.append_assoc,
        List.singleton_append]
    · rw [announced, enqueue_newMsgs, List.append_assoc, List.map_cons, List.singleton_append]

/-- Settles O25: the run of `runInstrs_enqueue` from the empty queue. -/
theorem queueKeepsNewest : Obligations.QueueKeepsNewest := by
  intro ps s empty capPos
  simpa [empty] using runInstrs_enqueue ps capPos (by simp [empty])

/-! ### `SELECT` and the tokens (R156, R157) -/

theorem exec_select_known {s : State} {code : Byte} {d : Config.CommandDef}
    (key : commandOf s.cfg code = some d) :
    exec (.select code) s = .next { s with
      seqCmd := code, seqSelValid := true, seqIdx := 0, seqLastValid := false,
      result := .selected true } := by
  have ok : selectOk code s = true := by simp [selectOk, key]
  rw [exec_select, hostSelect, selectCommand, if_pos ok, ok]
  rfl

theorem exec_select_unknown {s : State} {code : Byte} (noKey : commandOf s.cfg code = none) :
    exec (.select code) s = .next { s with result := .selected false } := by
  have rejected : selectOk code s = false := by simp [selectOk, noKey]
  rw [exec_select, hostSelect, selectCommand, if_neg (by simp [rejected]), rejected]
  rfl

/-- A code that is no token of R95 names no command (log entry 8). -/
theorem commandOf_eq_none_of_not_token {c : Config.Params} {code : Byte}
    (outside : code.toNat = 0 ∨ (5 < code.toNat ∧ code.toNat < 0x11) ∨
      0x10 + c.nInit < code.toNat) :
    commandOf c code = none := by
  have notToken : isToken c code = false := by
    simp only [isToken, Bool.or_eq_false_iff, Bool.and_eq_false_iff, decide_eq_false_iff_not]
    omega
  simp [commandOf, notToken]

/-- Settles O27: a key, no key, and the codes outside the token table. -/
theorem selectRule : Obligations.SelectRule :=
  ⟨fun _ _ _ => exec_select_known, fun _ _ => exec_select_unknown,
    fun _ _ outside => exec_select_unknown (commandOf_eq_none_of_not_token outside), fun _ => rfl⟩

theorem exec_tokenInit {k : Byte} (one : 1 ≤ k.toNat) (fits : k.toNat ≤ 0xEF) (s : State) :
    exec (.tokenInit k) s = exec (.select (0x10 + k)) s := by
  change execTokenInit k s = _
  rw [execTokenInit, tokenInitCode, if_pos ⟨one, fits⟩]
  rfl

/-- Settles O28: each token's meaning is `SELECT` of its code. -/
theorem tokensSelect : Obligations.TokensSelect := by
  intro s i code token
  have same : exec i s = exec (.select code) s := by
    rcases token with ⟨rfl, rfl⟩ | ⟨rfl, rfl⟩ | ⟨rfl, rfl⟩ | ⟨rfl, rfl⟩ | ⟨rfl, rfl⟩ |
      ⟨k, rfl, rfl, one, fits⟩
    case inr.inr.inr.inr.inr => exact exec_tokenInit one fits s
    all_goals rfl
  rw [same]
  exact ⟨fun _ => exec_select_known, exec_select_unknown⟩

/-! ### The ordering property (R162) -/

/-- The `k`-th payload of a command: its prefixes, then the final payload for ever. -/
def payloadAt (d : Config.CommandDef) (k : Nat) : Payload := (d.prefixes[k]?).getD d.final

theorem nextPayload_min (d : Config.CommandDef) (k : Nat) :
    nextPayload d (min k d.prefixes.length) = payloadAt d k := by
  rcases Nat.le_total k d.prefixes.length with left | sent
  · rw [Nat.min_eq_left left]
    rfl
  · rw [Nat.min_eq_right sent, nextPayload_of_le (Nat.le_refl _)]
    exact (nextPayload_of_le sent).symm

theorem nextIndex_min (d : Config.CommandDef) (k : Nat) :
    nextIndex d (min k d.prefixes.length) = min (k + 1) d.prefixes.length := by
  unfold nextIndex
  split_ifs <;> omega

theorem sendNext_frames (now : Time) (d : Config.CommandDef) (s : State) :
    (sendNext now d s).out.filter isFrame =
      s.out.filter isFrame ++ [.tx (frameOf (nextPayload d s.seqIdx))] := by
  rcases sendNext_cases now d s with ⟨_, logged⟩ | ⟨_, silent⟩
  case inl => rw [logged]; exact List.filter_append ..
  case inr => rw [silent]; exact List.filter_append ..

/-- A command is selected and `k` of its transmissions are done. -/
structure Sending (d : Config.CommandDef) (k : Nat) (s : State) : Prop where
  selected : s.seqSelValid = true
  key : commandOf s.cfg s.seqCmd = some d
  index : s.seqIdx = min k d.prefixes.length

theorem seqTick_sending {now : Time} {d : Config.CommandDef} {k : Nat} {s : State}
    (h : Sending d k s) (gate : s.seqLastValid = false ∨ s.cfg.sendInterval ≤ now - s.seqLast) :
    Sending d (k + 1) (seqTick now s) ∧ (seqTick now s).seqLast = now ∧
      (seqTick now s).out.filter isFrame =
        s.out.filter isFrame ++ [.tx (frameOf (payloadAt d k))] := by
  have frame := seqTick_frame now s
  rw [seqTick_sends h.selected gate h.key] at frame ⊢
  obtain ⟨index, stamp, _⟩ := sendNext_stamp now d s
  refine ⟨⟨?_, ?_, ?_⟩, stamp, ?_⟩
  · rw [frame]; exact h.selected
  · rw [frame]; exact h.key
  · rw [index, h.index, nextIndex_min]
  · rw [sendNext_frames, h.index, nextPayload_min]

/-- Ticks the interval apart send the payloads from the `k`-th on. -/
theorem runInstrs_seqtick {d : Config.CommandDef} (nows : List Time) {k : Nat} {s : State}
    (h : Sending d k s)
    (gate : ∀ now ∈ nows.head?, s.seqLastValid = false ∨ s.cfg.sendInterval ≤ now - s.seqLast)
    (apart : nows.IsChain (fun now next => s.cfg.sendInterval ≤ next - now)) :
    ∃ t : State, runInstrs (nows.map .seqtick) s = .next t ∧
      t.out.filter isFrame = s.out.filter isFrame ++
        (List.range' k nows.length).map (fun j => .tx (frameOf (payloadAt d j))) ∧
      t.seqIdx = min (k + nows.length) d.prefixes.length := by
  induction nows generalizing k s with
  | nil => exact ⟨s, rfl, by simp, h.index⟩
  | cons now r ih =>
    obtain ⟨sending, stamp, sent⟩ := seqTick_sending h (gate now rfl)
    have cfg : (seqTick now s).cfg = s.cfg := by rw [seqTick_frame]
    obtain ⟨next, rest⟩ := List.isChain_cons.mp apart
    obtain ⟨t, run, frames, index⟩ := ih sending
      (fun now' head => .inr (by rw [cfg, stamp]; exact next now' head)) (by rwa [cfg])
    refine ⟨t, ?_, ?_, ?_⟩
    · rw [List.map_cons, runInstrs, exec_seqtick, andThen_next, run]
    · rw [frames, sent, List.append_assoc, List.length_cons, List.range'_succ, List.map_cons]
      rfl
    · rw [index, List.length_cons, Nat.add_assoc, Nat.add_comm 1]

/-- Settles O30: a successful `SELECT` leaves the gate open and no transmission done. -/
theorem prefixesOnceThenFinal : Obligations.PrefixesOnceThenFinal := by
  intro s code d nows key apart
  have h : Sending d 0 { s with
      seqCmd := code, seqSelValid := true, seqIdx := 0, seqLastValid := false,
      result := .selected true } := ⟨rfl, key, (Nat.zero_min _).symm⟩
  obtain ⟨t, run, frames, index⟩ := runInstrs_seqtick nows h (fun _ _ => .inl rfl)
    (List.isChain_iff_getElem.mpr apart)
  refine ⟨t, ?_, ?_, ?_⟩
  · rw [runInstrs, exec_select_known key, andThen_next, run]
  · rw [frames, ← List.range_eq_range']
    rfl
  · rw [index, Nat.zero_add]

/-! ### Debounce stability (R176) -/

/-- The raw flags after a list of writes. -/
def rawAfter (f : SensorFlags) (ws : List (Sensor × Bool)) : SensorFlags :=
  ws.foldl (fun g w => g.set w.1 w.2) f

theorem runInstrs_rawwr (ws : List (Sensor × Bool)) (l : List Instr) (s : State) :
    runInstrs (ws.map (fun w => .rawwr (sensorIndex w.1) w.2) ++ l) s =
      runInstrs l { s with raw := rawAfter s.raw ws } := by
  induction ws generalizing s with
  | nil => rfl
  | cons w r ih =>
    rw [List.map_cons, List.cons_append, runInstrs, exec_rawwr_sensorIndex, andThen_next, ih]
    rfl

/-- Each flag is the one written last, or the one before where none was written. -/
theorem rawAfter_get (ws : List (Sensor × Bool)) (f : SensorFlags) (x : Sensor) :
    (rawAfter f ws).get x =
      (((ws.filter (fun w => w.1 = x)).getLast?).map (·.2)).getD (f.get x) := by
  induction ws generalizing f with
  | nil => rfl
  | cons w r ih =>
    obtain ⟨y, v⟩ := w
    change (rawAfter (f.set y v) r).get x = _
    rw [ih]
    by_cases same : y = x
    · subst same
      rw [List.filter_cons_of_pos (by simp), SensorFlags.get_set_self, List.getLast?_cons]
      cases (r.filter (fun w => w.1 = y)).getLast? <;> rfl
    · rw [List.filter_cons_of_neg (by simpa using same),
        SensorFlags.get_set_of_ne f y x v (Ne.symm same)]

/-- Among the reports of a `RECONCILE` a sensor has one, if its flags differ, or none. -/
theorem changeReports_filter_length (x : Sensor) (s : State) :
    ((changeReports [.airA, .airB, .radarA, .radarB] s).filter (isSensorReport x)).length =
      if s.raw.get x = s.stable.get x then 0 else 1 := by
  have own : ∀ y,
      (isSensorReport x ∘ fun y => .diag (.iSensor y (s.raw.get y))) y = decide (y = x) :=
    fun _ => rfl
  rw [changeReports, List.filter_map, List.length_map, List.filter_filter]
  split_ifs with same
  · have none : ∀ y ∈ [Sensor.airA, .airB, .radarA, .radarB],
        ¬ (decide (y = x) && (s.raw.get y != s.stable.get y)) = true := by
      intro y _ both
      obtain ⟨rfl, differs⟩ : y = x ∧ s.raw.get y ≠ s.stable.get y := by simpa using both
      exact differs same
    simp only [own, List.filter_eq_nil_iff.mpr none, List.length_nil]
  · have one : ([Sensor.airA, .airB, .radarA, .radarB].filter
        (fun y => decide (y = x) && (s.raw.get y != s.stable.get y))) = [x] := by
      cases x <;> simp [same]
    simp only [own, one, List.length_singleton]

/-- Settles O33: the writes fold into the raw flags, which `RECONCILE` copies and reports once. -/
theorem rawWritesCollapse : Obligations.RawWritesCollapse := by
  intro ws s
  have out := reconcile_out { s with raw := rawAfter s.raw ws }
  have stable : (reconcile { s with raw := rawAfter s.raw ws }).stable = rawAfter s.raw ws := by
    rw [reconcile_frame]
  refine ⟨_, _, ?_, out, fun x => ⟨?_, ?_⟩⟩
  · rw [runInstrs_rawwr]; rfl
  · rw [stable, rawAfter_get]
  · rw [changeReports_filter_length, stable]

end Sys2Proof.Machine

/-! Door, lock and control cycle (R15, R36, R92, R93, R202, R218, R221): inert modes, the invariants
of the lock, and operands out of range. -/

namespace Sys2Proof.Machine

open Sys2Proof.Safety

/-! ### Timers, ignored codes and operands out of range -/

/-- Settles O48: subtraction of words is modulo 2^32. -/
theorem timerGuard : Obligations.TimerGuard := by
  intro now stamp duration
  rw [hasElapsed_iff, BitVec.le_def, BitVec.toNat_sub]
  have shift : 2 ^ 32 - stamp.toNat + now.toNat = now.toNat + 2 ^ 32 - stamp.toNat := by
    have := stamp.isLt
    omega
  rw [shift]

/-- Settles O54: the meaning of each ignored code is to answer the state itself. -/
theorem unassignedCodesIgnored : Obligations.UnassignedCodesIgnored :=
  fun _ => ⟨rfl, rfl, rfl, rfl⟩

theorem sensorOfIndex_eq_none {k : Byte} (outOfRange : 3 < k.toNat) : sensorOfIndex k = none := by
  cases named : sensorOfIndex k with
  | none => rfl
  | some x =>
    rw [← sensorIndex_of_sensorOfIndex named] at outOfRange
    cases x <;> simp [sensorIndex] at outOfRange

theorem exec_rawwr_of_index_gt {k : Byte} {v : Bool} {s : State} (outOfRange : 3 < k.toNat) :
    exec (.rawwr k v) s = .next s := by
  change execRawwr k v s = _
  rw [execRawwr, sensorOfIndex_eq_none outOfRange]

/-- Settles O47: no position, no sensor and no latch has such a number. -/
theorem outOfRangeOperands : Obligations.OutOfRangeOperands := by
  refine ⟨fun _ _ _ => exec_cycle_of_code_gt, fun _ _ _ => exec_rawwr_of_index_gt,
    fun k s past => ?_⟩
  rw [exec_setlatch, if_neg (Nat.not_lt.mpr past)]

/-! ### The door step outside its modes, and behind an engaged lock (R202, R221) -/

/-- Settles O34: neither acting mode is in force. -/
theorem doorInert : Obligations.DoorInert := by
  intro now pos s notManual notAutomatic
  have inert : ¬ doorStepActive s = true :=
    mt (doorStepActive_iff s).mp (not_or.mpr ⟨notManual, notAutomatic⟩)
  rw [exec_cycleDoorstep, doorStep, if_neg inert]
  rfl

/-- Two states have the same sequencer selection: no command was selected between them. -/
def SameCommand (s t : State) : Prop :=
  t.seqCmd = s.seqCmd ∧ t.seqSelValid = s.seqSelValid ∧ t.seqIdx = s.seqIdx ∧
    t.seqLastValid = s.seqLastValid

/-- An arm that fires no trigger: no command is selected, the latches and the entry position stay,
and `TRANSITION` is not entered. -/
structure QuietArm (s t : State) : Prop where
  command : SameCommand s t
  latches : t.swLatch = s.swLatch
  entry : t.posAtEntry = s.posAtEntry
  transition : t.ctlState = .transition → s.ctlState = .transition

/-- An arm of the door machine is quiet, or fires one of the two triggers: `CLOSE` out of `OPEN`, or
`OPEN` out of `CLOSED` with the lock off (R192, R196). -/
theorem doorArm_quiet_or_fired (now : Time) (pos : Position) (s : State)
    (cleared : s.triggerRelease = false) :
    QuietArm s (doorArm now pos s) ∨
      (s.ctlState = .opened ∧ pos = .opened ∧
        doorArm now pos s = firedState now pos tokenCloseCode s) ∨
      (s.ctlState = .closed ∧ pos = .closed ∧ s.lockActive = false ∧
        doorArm now pos s = firedState now pos tokenOpenCode s) := by
  have elsewhere {new : CtlState} {p : Prop} (other : new ≠ .transition)
      (e : new = .transition) : p := absurd e other
  rcases doorArm_cases now pos s cleared with e | ⟨_, _, e⟩ | ⟨_, _, e⟩ | ⟨_, e⟩ | ⟨_, e⟩ |
    ⟨_, _, _, e⟩ | ⟨_, _, _, e⟩ | ⟨_, _, e⟩ | ⟨state, door, _, e⟩ | ⟨state, door, unlocked, _, e⟩
  case inr.inr.inr.inr.inr.inr.inr.inr.inl => exact .inr (.inl ⟨state, door, e⟩)
  case inr.inr.inr.inr.inr.inr.inr.inr.inr => exact .inr (.inr ⟨state, door, unlocked, e⟩)
  case inl => rw [e]; exact .inl ⟨⟨rfl, rfl, rfl, rfl⟩, rfl, rfl, id⟩
  case inr.inr.inr.inr.inr.inr.inr.inl =>
    rw [e]
    exact .inl ⟨⟨rfl, rfl, rfl, rfl⟩, rfl, rfl, elsewhere (fallbackState_ne_transition pos)⟩
  all_goals
    rw [e]
    exact .inl ⟨⟨rfl, rfl, rfl, rfl⟩, rfl, rfl, elsewhere (by simp [movedTo])⟩

/-- What a fired trigger leaves selected: its command, or what was selected where the table has no
such key (R156, R157). -/
theorem firedState_command (now : Time) (pos : Position) (code : Byte) (s : State) :
    (firedState now pos code s).ctlState = .transition ∧
      ((firedState now pos code s).seqCmd = code ∨ SameCommand s (firedState now pos code s)) := by
  refine ⟨rfl, ?_⟩
  rcases selectCommand_cases code { s with triggerRelease := true } with ⟨_, e⟩ | ⟨_, e⟩
  · left; rw [firedState, e]; rfl
  · right; rw [firedState, e]; exact ⟨rfl, rfl, rfl, rfl⟩

/-- Settles O44: the trigger that selects `OPEN` needs the lock off. -/
theorem lockedDoorNeverOpened : Obligations.LockedDoorNeverOpened := by
  intro now pos s t locked answer
  rw [exec_cycleDoorstep] at answer
  cases answer
  rcases doorStep_cases now pos s with ⟨_, e⟩ | ⟨_, e⟩ <;> rw [e]
  · exact .inl ⟨rfl, rfl, rfl, rfl⟩
  rcases doorArm_quiet_or_fired now pos (clearRelease s) rfl with
    quiet | ⟨opened, _, fired⟩ | ⟨_, _, unlocked, _⟩
  · exact .inl quiet.command
  · rw [fired]
    obtain ⟨entered, command | same⟩ := firedState_command now pos tokenCloseCode (clearRelease s)
    · exact .inr ⟨opened, command, entered⟩
    · exact .inl same
  · exact absurd locked (ne_true_of_eq_false unlocked)

/-! ### The lock step (R218, R221) -/

theorem lockStep_of_honoured {now : Time} {s : State} (idle : s.pulseActive = false)
    (pending : s.lockRequested ≠ s.lockActive)
    (closed : s.ctlState = .closed ∨ s.ctlState = .closedLocked) :
    lockStep now s = honourRequest now s := by
  rw [lockStep_of_idle idle, if_pos ((requestPending_iff s).mpr pending),
    if_pos ((doorFullyClosed_iff s).mpr closed)]

/-- Settles O50: the branch `honourRequest`, written out. -/
theorem lockHonourRule : Obligations.LockHonourRule := by
  intro now s idle pending closed
  rw [exec_cycleLockstep, lockStep_of_honoured idle pending closed]
  rfl

/-- The lock step starts a pulse by honouring a request and in no other way. -/
theorem lockStep_starts_pulse {now : Time} {s : State} (idle : s.pulseActive = false)
    (pulsing : (lockStep now s).pulseActive = true) :
    (s.ctlState = .closed ∨ s.ctlState = .closedLocked) ∧ s.lockRequested ≠ s.lockActive ∧
      lockStep now s = honourRequest now s := by
  by_cases agreed : s.lockRequested = s.lockActive
  · rw [lockStep_of_not_pending idle agreed] at pulsing
    exact absurd pulsing (ne_true_of_eq_false idle)
  by_cases closed : s.ctlState = .closed ∨ s.ctlState = .closedLocked
  · exact ⟨closed, agreed, lockStep_of_honoured idle agreed closed⟩
  · rw [lockStep_of_waiting idle agreed closed, remind_eq] at pulsing
    split_ifs at pulsing <;> exact absurd pulsing (ne_true_of_eq_false idle)

/-! ### The control cycle (R36, R221, R230) -/

theorem controlCycle_posLast (now : Time) (p : Position) (s : State) :
    (controlCycle now p s).posLast = p := by
  rw [controlCycle, seqTick_frame, lockStep_frame, doorStep_frame, reconcile_frame]

/-- Settles O46: the four outputs by definition; no phase writes the position. -/
theorem statusOutputs : Obligations.StatusOutputs :=
  fun s => ⟨rfl, rfl, rfl, rfl, fun now p =>
    ⟨_, exec_cycle_positionCode now p s, controlCycle_posLast now p s⟩⟩

/-- The state the lock step of a cycle sees. -/
def beforeLock (now : Time) (p : Position) (s : State) : State :=
  doorStep now p (reconcile { s with posLast := p })

/-- The phases before the lock step leave the lock's registers and the request as they were. -/
theorem beforeLock_keeps (now : Time) (p : Position) (s : State) :
    (beforeLock now p s).pulseActive = s.pulseActive ∧
      (beforeLock now p s).lockActive = s.lockActive ∧
      (beforeLock now p s).lockRequested = s.lockRequested := by
  rw [beforeLock, doorStep_frame, reconcile_frame]
  exact ⟨rfl, rfl, rfl⟩

/-- The sequencer's tick, last in the cycle, leaves the door and the lock as the lock step left
them. -/
theorem controlCycle_lock (now : Time) (p : Position) (s : State) :
    (controlCycle now p s).ctlState = (lockStep now (beforeLock now p s)).ctlState ∧
      (controlCycle now p s).pulseActive = (lockStep now (beforeLock now p s)).pulseActive ∧
      (controlCycle now p s).lockActive = (lockStep now (beforeLock now p s)).lockActive ∧
      (controlCycle now p s).pulseStart = (lockStep now (beforeLock now p s)).pulseStart ∧
      (controlCycle now p s).lockRelay = (lockStep now (beforeLock now p s)).lockRelay := by
  rw [controlCycle, seqTick_frame]
  exact ⟨rfl, rfl, rfl, rfl, rfl⟩

/-- Settles O52: the pulse is started by the lock step, which then honours a request (R218). -/
theorem pulseStartsOnlyClosed : Obligations.PulseStartsOnlyClosed := by
  intro now code s t answer idle pulsing
  rw [exec_cycle, execCycle] at answer
  split at answer <;> cases answer
  case h_2 => exact absurd pulsing (ne_true_of_eq_false idle)
  case h_1 p _ =>
    obtain ⟨pulse, active, requested⟩ := beforeLock_keeps now p s
    obtain ⟨ctl, pulse', active', start, relay⟩ := controlCycle_lock now p s
    rw [pulse'] at pulsing
    obtain ⟨closed, pending, honoured⟩ := lockStep_starts_pulse (pulse.trans idle) pulsing
    rw [ctl, active', start, relay, honoured, ← requested, ← active]
    exact ⟨closed, rfl, pending, rfl, rfl⟩

/-- Settles O56: the reset values meet each part; the queue's capacity and the number of latches are
the deployment's. -/
theorem invariantAtReset : Obligations.InvariantAtReset where
  decoder := decoderInv_of_not_midFrame State.reset_rxBuf_wf (Nat.zero_le _) rfl
  queue := ⟨by decide, by decide, by simp [State.reset], Nat.zero_le _⟩
  sequencer := fun selected => by cases selected
  latches := rfl
  transition := fun inTransition => by cases inTransition
  relay := rfl

end Sys2Proof.Machine

/-! Who may issue what, and which registers each operation writes (R44, R267). -/

namespace Sys2Proof.Machine

open Sys2Proof.Safety

/-! ### Agents (R267) -/

theorem mayIssue_edgeHandler (x : Sensor) (i : Instr) :
    mayIssue (.edgeHandler x) i = true ↔ ∃ v : Bool, (Move.edge x v).operation = .ok i := by
  cases i with
  | rawwr k v => simp [mayIssue, eq_comm]
  | _ => simp [mayIssue]

theorem mayIssue_controlLoop (i : Instr) :
    mayIssue .controlLoop i = true ↔
      inSpace i .hostop = true ∧ ∀ (k : Byte) (v : Bool), i ≠ .rawwr k v := by
  cases i with
  | rawwr k v => simp [mayIssue]
  | _ => simp [mayIssue]

/-! ### The registers a host operation writes, row by row of R44 -/

/-- What is left as it was by every operation but `RESET` and the ones named: a field that is not
given is true by `rfl`, so a proof names exactly the rows that its operation writes. -/
structure Kept (i : Instr) (s t : State) : Prop where
  epoch : t.epoch = s.epoch := by rfl
  decoder : (∀ b, i ≠ .rxbyte b) → sameDecoder s t ∧ sameRxlog s t := by
    exact fun _ => ⟨⟨rfl, rfl, rfl, rfl⟩, rfl, rfl⟩
  queue : (∀ b, i ≠ .rxbyte b) → i ≠ .dequeue → t.q = s.q := by exact fun _ _ => rfl
  debug : (∀ v, i ≠ .setdebug v) → t.debugOut = s.debugOut := by exact fun _ => rfl
  selection : (∀ c, i ≠ .select c) → (∀ n p, i ≠ .cycle n p) → sameSelection s t := by
    exact fun _ _ => ⟨rfl, rfl⟩
  progress : (∀ c, i ≠ .select c) → (∀ n, i ≠ .seqtick n) → (∀ n p, i ≠ .cycle n p) →
    sameProgress s t := by exact fun _ _ _ => ⟨rfl, rfl⟩
  sent : (∀ n, i ≠ .seqtick n) → (∀ n p, i ≠ .cycle n p) → sameSent s t := by
    exact fun _ _ => ⟨rfl, rfl, rfl⟩
  raw : ∀ x, (∀ v, i ≠ .rawwr (sensorIndex x) v) → t.raw.get x = s.raw.get x := by
    exact fun _ _ => rfl
  door : (∀ n p, i ≠ .cycle n p) → t.stable = s.stable ∧ sameDoor s t ∧ sameLock s t := by
    exact fun _ => ⟨rfl, ⟨rfl, rfl, rfl, rfl, rfl, rfl⟩, rfl, rfl, rfl, rfl, rfl, rfl⟩
  latches : (∀ k, i ≠ .setlatch k) → (∀ n p, i ≠ .cycle n p) → t.swLatch = s.swLatch := by
    exact fun _ _ => rfl
  request : (∀ v, i ≠ .setlockreq v) → t.lockRequested = s.lockRequested := by exact fun _ => rfl

/-- What is left as it was by every operation but the ones named, `RESET` included: the parameters,
the pending moves, the result and the mode. -/
structure KeptByAll (i : Instr) (s t : State) : Prop where
  cfg : t.cfg = s.cfg := by rfl
  pending : t.pending = s.pending := by rfl
  result : i ≠ .dequeue → (∀ c, i ≠ .select c) → (∀ p, i ≠ .encode p) → t.result = s.result := by
    exact fun _ _ _ => rfl
  mode : (∀ m, i ≠ .setmode m) → t.mode = s.mode := by exact fun _ => rfl

/-- A cycle leaves what none of its phases writes: all but the registers of its rows. -/
theorem controlCycle_keeps (now : Time) (code : BitVec 3) (p : Position) (s : State) :
    KeptByAll (.cycle now code) s (controlCycle now p s) ∧
      Kept (.cycle now code) s (controlCycle now p s) := by
  have self : ¬ ∀ n p, Instr.cycle now code ≠ .cycle n p := fun other => other now code rfl
  rw [controlCycle, seqTick_frame, lockStep_frame, doorStep_frame, reconcile_frame]
  exact ⟨{}, {
    selection := fun _ other => absurd other self
    progress := fun _ _ other => absurd other self
    sent := fun _ other => absurd other self
    door := fun other => absurd other self
    latches := fun _ other => absurd other self }⟩

/-- The writers of the registers: each host operation but `RESET` keeps every row that does not list
it. -/
theorem exec_kept {i : Instr} {s t : State} (host : inSpace i .hostop = true)
    (h : exec i s = .next t) :
    KeptByAll i s t ∧ (i ≠ .reset → Kept i s t) := by
  cases i with
  | reset =>
    cases h
    exact ⟨{}, fun other => absurd rfl other⟩
  | unassignedC | unassignedD | unassignedE | unassignedF =>
    cases h
    exact ⟨{}, fun _ => {}⟩
  | rxbyte b =>
    rw [receiveByte_frame b s t h]
    exact ⟨{}, fun _ => {
      decoder := fun other => absurd rfl (other b)
      queue := fun other => absurd rfl (other b) }⟩
  | dequeue =>
    cases head : s.q with
    | nil =>
      rw [exec_dequeue_nil head] at h
      cases h
      exact ⟨{ result := fun other => absurd rfl other }, fun _ => {}⟩
    | cons p r =>
      rw [exec_dequeue_cons head] at h
      cases h
      exact ⟨{ result := fun other => absurd rfl other },
        fun _ => { queue := fun _ other => absurd rfl other }⟩
  | select c =>
    rw [exec_select, hostSelect, selectCommand_frame] at h
    cases h
    exact ⟨{ result := fun _ other => absurd rfl (other c) }, fun _ => {
      selection := fun other => absurd rfl (other c)
      progress := fun other => absurd rfl (other c) }⟩
  | seqtick now =>
    rw [exec_seqtick, seqTick_frame] at h
    cases h
    exact ⟨{}, fun _ => {
      progress := fun _ other => absurd rfl (other now)
      sent := fun other => absurd rfl (other now) }⟩
  | rawwr k v =>
    cases named : sensorOfIndex k with
    | none =>
      rw [show exec (.rawwr k v) s = .next s by simp [exec, execRawwr, named]] at h
      cases h
      exact ⟨{}, fun _ => {}⟩
    | some y =>
      obtain rfl := sensorIndex_of_sensorOfIndex named
      rw [exec_rawwr_sensorIndex] at h
      cases h
      refine ⟨{}, fun _ => { raw := fun x other => SensorFlags.get_set_of_ne _ _ _ _ ?_ }⟩
      rintro rfl
      exact other v rfl
  | cycle now code =>
    rw [exec_cycle, execCycle] at h
    split at h <;> cases h
    · obtain ⟨all, kept⟩ := controlCycle_keeps now code _ s
      exact ⟨all, fun _ => kept⟩
    · exact ⟨{}, fun _ => {}⟩
  | setmode m =>
    cases h
    exact ⟨{ mode := fun other => absurd rfl (other m) }, fun _ => {}⟩
  | setlockreq v =>
    cases h
    exact ⟨{}, fun _ => { request := fun other => absurd rfl (other v) }⟩
  | setlatch k =>
    rw [exec_setlatch] at h
    split_ifs at h <;> cases h
    · exact ⟨{}, fun _ => { latches := fun other => absurd rfl (other k) }⟩
    · exact ⟨{}, fun _ => {}⟩
  | setdebug v =>
    cases h
    exact ⟨{}, fun _ => { debug := fun other => absurd rfl (other v) }⟩
  | encode p =>
    cases h
    exact ⟨{ result := fun _ _ other => absurd rfl (other p) }, fun _ => {}⟩
  | _ => simp [inSpace] at host

/-- Settles O58: the agents, `exec_kept` row by row, and the frame of each phase. -/
theorem writerDiscipline : Obligations.WriterDiscipline := by
  refine ⟨mayIssue_edgeHandler, mayIssue_controlLoop, fun i s t host h => ?rows,
    fun s t h => ?reconcile, fun now pos s t h => ?door, fun now s t h => ?lock,
    fun now s t h => ?tick⟩
  case rows =>
    obtain ⟨all, kept⟩ := exec_kept host h
    refine ⟨all.cfg, all.pending, all.result, all.mode, fun notReset => ?_⟩
    obtain ⟨_, decoder, queue, debug, selection, progress, sent, raw, door, latches, request⟩ :=
      kept notReset
    exact ⟨decoder, queue, debug, selection, progress, sent, raw, door, latches, request⟩
  case reconcile =>
    cases h
    have copied : (reconcile s).stable = s.raw := by rw [reconcile_frame]
    rw [copied]
    exact reconcile_frame s
  case door => cases h; exact doorStep_frame now pos s
  case lock => cases h; exact lockStep_frame now s
  case tick => cases h; exact seqTick_frame now s

end Sys2Proof.Machine

/-! Every step keeps the invariant of the block (R22, R30, R40, R130, R140, R198): each part is left
alone by the operations that do not write its registers (R44), and kept by those that do. -/

namespace Sys2Proof.Machine

open Sys2Proof.Safety

/-! ### The registers each part reads -/

theorem decoderInv_congr {s t : State} (same : sameDecoder s t) (epoch : t.epoch = s.epoch)
    (h : DecoderInv s) : DecoderInv t := by
  obtain ⟨state, len, ck, buf⟩ := same
  have inside : midFrame t = midFrame s := by simp [midFrame, state]
  have payload : t.rxPayload = s.rxPayload := by
    simp only [State.rxPayload, len]
    refine List.map_congr_left fun a _ => ?_
    rw [State.rxByte, State.rxByte, buf, epoch]
  constructor
  · rw [buf]; exact h.wf
  · rw [len]; exact h.lenLe
  · rw [inside, len]; exact h.room
  · rw [inside, ck, payload]; exact h.ckEq
  · rw [inside, len, buf]; exact h.written

theorem queueInv_congr {s t : State} (cfg : t.cfg = s.cfg) (q : t.q = s.q)
    (logged : t.rxlogLast = s.rxlogLast) (h : QueueInv s) : QueueInv t := by
  constructor
  · rw [cfg]; exact h.capPos
  · rw [cfg, q]; exact h.bound
  · rw [q]; exact h.entries
  · rw [logged]; exact h.logged

theorem sequencerInv_congr {s t : State} (cfg : t.cfg = s.cfg) (command : SameCommand s t)
    (h : SequencerInv s) : SequencerInv t := by
  obtain ⟨cmd, valid, idx, _⟩ := command
  rw [SequencerInv, cfg, cmd, valid, idx]
  exact h

theorem latchInv_congr {s t : State} (cfg : t.cfg = s.cfg) (latches : t.swLatch = s.swLatch)
    (h : LatchInv s) : LatchInv t := by
  rw [LatchInv, cfg, latches]
  exact h

/-! ### The decoder and the queue -/

theorem exec_keeps_decoderInv {i : Instr} {s t : State} (host : inSpace i .hostop = true)
    (answer : exec i s = .next t) (h : DecoderInv s) : DecoderInv t := by
  by_cases reset : i = .reset
  · subst reset
    cases answer
    exact decoderInv_of_not_midFrame Memory.wf_nil (Nat.zero_le _) rfl
  by_cases byte : ∃ b, i = .rxbyte b
  · obtain ⟨b, rfl⟩ := byte
    obtain ⟨u, same, effect⟩ := receiveByte_effect b h.room
    cases answer.symm.trans same
    exact effect.keeps_decoderInv h
  · have kept := (exec_kept host answer).2 reset
    exact decoderInv_congr (kept.decoder (not_exists.mp byte)).1 kept.epoch h

theorem rxPayload_length (s : State) : s.rxPayload.length = s.rxLen := by simp [State.rxPayload]

theorem enqueue_keeps_queueInv {p : Payload} {s : State} (short : p.length ≤ Config.maxPayload - 1)
    (h : QueueInv s) : QueueInv (enqueue p s) := by
  constructor
  case capPos => rw [enqueue_cfg]; exact h.capPos
  case bound => rw [enqueue_cfg]; exact enqueue_q_length_le p h.capPos h.bound
  case entries =>
    intro r member
    rw [enqueue_q_newest p h.capPos h.bound] at member
    rcases List.mem_append.mp (List.mem_of_mem_drop member) with old | new
    · exact h.entries r old
    · rw [List.mem_singleton.mp new]; exact short
  case logged =>
    rcases enqueue_cases p s with ⟨_, e⟩ | ⟨_, e⟩ <;> rw [e]
    · exact short
    · exact h.logged

/-- Only a delivered payload reaches the queue, and a frame in progress holds at most 127 bytes. -/
theorem RxEffect.keeps_queueInv {s t : State} (effect : RxEffect s t) (room : Room s)
    (h : QueueInv s) : QueueInv t := by
  cases effect with
  | delivered inside =>
    have short : s.rxPayload.length ≤ Config.maxPayload - 1 := by
      rw [rxPayload_length]
      exact Nat.le_sub_one_of_lt (room inside)
    exact queueInv_congr (s := enqueue s.rxPayload s) rfl rfl rfl (enqueue_keeps_queueInv short h)
  | moved | started | appended | oversized | rejected => exact queueInv_congr (s := s) rfl rfl rfl h

theorem exec_keeps_queueInv {i : Instr} {s t : State} (host : inSpace i .hostop = true)
    (answer : exec i s = .next t) (room : Room s) (h : QueueInv s) : QueueInv t := by
  by_cases reset : i = .reset
  · subst reset
    cases answer
    exact ⟨h.capPos, Nat.zero_le _, fun _ none => (by cases none), List.length_take_le ..⟩
  by_cases byte : ∃ b, i = .rxbyte b
  · obtain ⟨b, rfl⟩ := byte
    obtain ⟨u, same, effect⟩ := receiveByte_effect b room
    cases answer.symm.trans same
    exact effect.keeps_queueInv room h
  obtain ⟨all, kept⟩ := exec_kept host answer
  have noByte := not_exists.mp byte
  have logged : t.rxlogLast = s.rxlogLast := ((kept reset).decoder noByte).2.2
  by_cases dequeue : i = .dequeue
  · subst dequeue
    cases head : s.q with
    | nil =>
      rw [exec_dequeue_nil head] at answer
      cases answer
      exact queueInv_congr (s := s) rfl rfl rfl h
    | cons p r =>
      rw [exec_dequeue_cons head] at answer
      cases answer
      have bound := h.bound
      have entries := h.entries
      rw [head] at bound entries
      exact ⟨h.capPos, Nat.le_of_succ_le bound, fun r member => entries r (.tail p member),
        h.logged⟩
  · exact queueInv_congr all.cfg ((kept reset).queue noByte dequeue) logged h

/-! ### The sequencer -/

theorem selectCommand_keeps_sequencerInv (code : Byte) {s : State} (h : SequencerInv s) :
    SequencerInv (selectCommand code s) := by
  rcases selectCommand_cases code s with ⟨ok, e⟩ | ⟨_, e⟩ <;> rw [e]
  · obtain ⟨d, key⟩ := Option.isSome_iff_exists.mp ok
    exact fun _ => ⟨d, key, Nat.zero_le _⟩
  · exact h

theorem nextIndex_le {d : Config.CommandDef} {idx : Nat} (h : idx ≤ d.prefixes.length) :
    nextIndex d idx ≤ d.prefixes.length := by
  unfold nextIndex
  split_ifs <;> omega

theorem seqTick_keeps_sequencerInv (now : Time) {s : State} (h : SequencerInv s) :
    SequencerInv (seqTick now s) := by
  have frame := seqTick_frame now s
  rcases seqTick_cases now s with e | ⟨d, selected, _, key, e⟩ <;> rw [e] at frame ⊢
  · exact h
  · obtain ⟨d', key', counted⟩ := h selected
    obtain rfl : d' = d := Option.some.inj (key'.symm.trans key)
    have index := (sendNext_stamp now d' s).1
    intro _
    refine ⟨d', ?_, index ▸ nextIndex_le counted⟩
    rw [frame]
    exact key

theorem doorStep_keeps_sequencerInv (now : Time) (pos : Position) {s : State} (h : SequencerInv s) :
    SequencerInv (doorStep now pos s) := by
  have cfg : (doorStep now pos s).cfg = s.cfg := by rw [doorStep_frame]
  have fired (code : Byte) : SequencerInv (firedState now pos code (clearRelease s)) :=
    selectCommand_keeps_sequencerInv code (s := { s with triggerRelease := true }) h
  rcases doorStep_cases now pos s with ⟨_, e⟩ | ⟨_, e⟩ <;> rw [e] at cfg ⊢
  · exact h
  rcases doorArm_quiet_or_fired now pos (clearRelease s) rfl with quiet | ⟨_, _, e⟩ | ⟨_, _, _, e⟩
  · exact sequencerInv_congr (s := s) cfg quiet.command h
  · rw [e]; exact fired _
  · rw [e]; exact fired _

theorem controlCycle_keeps_sequencerInv (now : Time) (p : Position) {s : State}
    (h : SequencerInv s) : SequencerInv (controlCycle now p s) := by
  have reconciled : SequencerInv (reconcile { s with posLast := p }) := by
    rw [reconcile_frame]
    exact h
  have locked : SequencerInv (lockStep now (beforeLock now p s)) := by
    rw [lockStep_frame]
    exact doorStep_keeps_sequencerInv now p reconciled
  exact seqTick_keeps_sequencerInv now locked

/-- A part of the invariant that every cycle with a position keeps, every `CYCLE` keeps (R93). -/
theorem exec_cycle_keeps {P : State → Prop} {now : Time} {code : BitVec 3} {s t : State}
    (keeps : ∀ p, P (controlCycle now p s)) (answer : exec (.cycle now code) s = .next t)
    (h : P s) : P t := by
  rw [exec_cycle, execCycle] at answer
  split at answer <;> cases answer
  · exact keeps _
  · exact h

theorem exec_keeps_sequencerInv {i : Instr} {s t : State} (host : inSpace i .hostop = true)
    (answer : exec i s = .next t) (h : SequencerInv s) : SequencerInv t := by
  by_cases reset : i = .reset
  · subst reset
    cases answer
    exact fun selected => by cases selected
  by_cases select : ∃ c, i = .select c
  · obtain ⟨c, rfl⟩ := select
    cases answer
    exact selectCommand_keeps_sequencerInv c h
  by_cases tick : ∃ n, i = .seqtick n
  · obtain ⟨n, rfl⟩ := tick
    cases answer
    exact seqTick_keeps_sequencerInv n h
  by_cases cycle : ∃ n p, i = .cycle n p
  · obtain ⟨n, p, rfl⟩ := cycle
    exact exec_cycle_keeps (fun p => controlCycle_keeps_sequencerInv n p h) answer h
  obtain ⟨all, kept⟩ := exec_kept host answer
  have noSelect := not_exists.mp select
  have noCycle : ∀ n p, i ≠ .cycle n p := fun n p e => cycle ⟨n, p, e⟩
  obtain ⟨valid, cmd⟩ := (kept reset).selection noSelect noCycle
  obtain ⟨idx, last⟩ := (kept reset).progress noSelect (not_exists.mp tick) noCycle
  exact sequencerInv_congr all.cfg ⟨cmd, valid, idx, last⟩ h

/-! ### The latches, `TRANSITION` and the relay -/

theorem firedState_swLatch_length (now : Time) (pos : Position) (code : Byte) (s : State) :
    (firedState now pos code s).swLatch.length = s.swLatch.length := by
  rw [firedState, selectCommand_frame]
  exact List.length_map ..

theorem doorStep_swLatch_length (now : Time) (pos : Position) (s : State) :
    (doorStep now pos s).swLatch.length = s.swLatch.length := by
  rcases doorStep_cases now pos s with ⟨_, e⟩ | ⟨_, e⟩ <;> rw [e]
  · rfl
  rcases doorArm_quiet_or_fired now pos (clearRelease s) rfl with quiet | ⟨_, _, e⟩ | ⟨_, _, _, e⟩
  · rw [quiet.latches]; rfl
  · rw [e]; exact firedState_swLatch_length ..
  · rw [e]; exact firedState_swLatch_length ..

theorem controlCycle_keeps_latchInv (now : Time) (p : Position) {s : State} (h : LatchInv s) :
    LatchInv (controlCycle now p s) := by
  have cfg : (beforeLock now p s).cfg = s.cfg := by rw [beforeLock, doorStep_frame, reconcile_frame]
  have stepped : LatchInv (beforeLock now p s) := by
    rw [LatchInv, cfg, beforeLock, doorStep_swLatch_length, reconcile_frame]
    exact h
  rw [controlCycle, seqTick_frame, lockStep_frame]
  exact stepped

theorem exec_keeps_latchInv {i : Instr} {s t : State} (host : inSpace i .hostop = true)
    (answer : exec i s = .next t) (h : LatchInv s) : LatchInv t := by
  by_cases reset : i = .reset
  · subst reset
    cases answer
    exact List.length_replicate
  by_cases latch : ∃ k, i = .setlatch k
  · obtain ⟨k, rfl⟩ := latch
    rw [exec_setlatch] at answer
    split_ifs at answer <;> cases answer
    · exact List.length_set.trans h
    · exact h
  by_cases cycle : ∃ n p, i = .cycle n p
  · obtain ⟨n, p, rfl⟩ := cycle
    exact exec_cycle_keeps (fun p => controlCycle_keeps_latchInv n p h) answer h
  obtain ⟨all, kept⟩ := exec_kept host answer
  exact latchInv_congr all.cfg
    ((kept reset).latches (not_exists.mp latch) fun n p e => cycle ⟨n, p, e⟩) h

/-- Both triggers fire with the door at the position their state stands for (R198). -/
theorem doorStep_keeps_transitionInv (now : Time) (pos : Position) {s : State}
    (h : TransitionInv s) : TransitionInv (doorStep now pos s) := by
  rcases doorStep_cases now pos s with ⟨_, e⟩ | ⟨_, e⟩ <;> rw [e]
  · exact h
  rcases doorArm_quiet_or_fired now pos (clearRelease s) rfl with
    quiet | ⟨_, opened, e⟩ | ⟨_, closed, _, e⟩
  · intro inTransition
    rw [quiet.entry]
    exact h (quiet.transition inTransition)
  · rw [e]; exact fun _ => .inl opened
  · rw [e]; exact fun _ => .inr closed

theorem controlCycle_keeps_transitionInv (now : Time) (p : Position) {s : State}
    (h : TransitionInv s) : TransitionInv (controlCycle now p s) := by
  have stepped : TransitionInv (beforeLock now p s) := by
    rw [beforeLock, reconcile_frame]
    exact doorStep_keeps_transitionInv now p h
  rw [controlCycle, seqTick_frame, lockStep_frame]
  exact stepped

theorem lockStep_keeps_relayInv (now : Time) {s : State} (h : RelayInv s) :
    RelayInv (lockStep now s) := by
  cases pulse : s.pulseActive with
  | true =>
    rw [lockStep_of_pulseActive pulse, runPulse_eq]
    split_ifs
    · rfl
    · exact h
  | false =>
    by_cases agreed : s.lockRequested = s.lockActive
    · rw [lockStep_of_not_pending pulse agreed]
      exact h
    by_cases closed : s.ctlState = .closed ∨ s.ctlState = .closedLocked
    · rw [lockStep_of_honoured pulse agreed closed]
      rfl
    · rw [lockStep_of_waiting pulse agreed closed, remind_eq]
      split_ifs <;> exact h

theorem controlCycle_keeps_relayInv (now : Time) (p : Position) {s : State} (h : RelayInv s) :
    RelayInv (controlCycle now p s) := by
  have stepped : RelayInv (beforeLock now p s) := by
    rw [beforeLock, doorStep_frame, reconcile_frame]
    exact h
  rw [controlCycle, seqTick_frame]
  exact lockStep_keeps_relayInv now stepped

/-- The door and the lock are written by `RESET` and by `CYCLE` only (R44). -/
theorem exec_keeps_doorAndLock {i : Instr} {s t : State} (host : inSpace i .hostop = true)
    (answer : exec i s = .next t) (transition : TransitionInv s) (relay : RelayInv s) :
    TransitionInv t ∧ RelayInv t := by
  by_cases reset : i = .reset
  · subst reset
    cases answer
    exact ⟨fun inTransition => (by cases inTransition), rfl⟩
  by_cases cycle : ∃ n p, i = .cycle n p
  · obtain ⟨n, p, rfl⟩ := cycle
    exact exec_cycle_keeps (P := fun u => TransitionInv u ∧ RelayInv u)
      (fun p => ⟨controlCycle_keeps_transitionInv n p transition,
        controlCycle_keeps_relayInv n p relay⟩) answer ⟨transition, relay⟩
  have kept := (exec_kept host answer).2 reset
  obtain ⟨_, ⟨_, ctl, _, _, entry, _⟩, _, level, pulse, _⟩ := kept.door fun n p e => cycle ⟨n, p, e⟩
  rw [TransitionInv, RelayInv, ctl, entry, level, pulse]
  exact ⟨transition, relay⟩

theorem exec_keeps_inv {i : Instr} {s t : State} (host : inSpace i .hostop = true)
    (answer : exec i s = .next t) (inv : Inv s) : Inv t := by
  obtain ⟨transition, relay⟩ := exec_keeps_doorAndLock host answer inv.transition inv.relay
  exact {
    decoder := exec_keeps_decoderInv host answer inv.decoder
    queue := exec_keeps_queueInv host answer inv.decoder.room inv.queue
    sequencer := exec_keeps_sequencerInv host answer inv.sequencer
    latches := exec_keeps_latchInv host answer inv.latches
    transition
    relay }

/-- The moves still pending are no part of the invariant. -/
theorem inv_pending {s : State} (r : List Move) (inv : Inv s) : Inv { s with pending := r } where
  decoder := decoderInv_congr (s := s) ⟨rfl, rfl, rfl, rfl⟩ rfl inv.decoder
  queue := queueInv_congr (s := s) rfl rfl rfl inv.queue
  sequencer := inv.sequencer
  latches := inv.latches
  transition := inv.transition
  relay := inv.relay

/-- Settles O57: a step holds the state, or runs a host operation on the state without the oldest
move. -/
theorem invariantKeptByStep : Obligations.InvariantKeptByStep := by
  intro s t inv stepped
  rcases step_eq_next stepped with ⟨_, rfl⟩ | ⟨i, r, host, _, answer⟩
  · exact inv
  · exact exec_keeps_inv host answer (inv_pending r inv)

end Sys2Proof.Machine

/-! Noninterference (R45, R255, R271): what the block does depends neither on the output stream nor,
but for the log records, on `debug_out`. Both are one relation between two runs, kept by every
operation for any channel `Q` that the two output streams and the two flags stay in. -/

namespace Sys2Proof.Machine

open Sys2Proof.Safety

/-! ### Two runs that differ in their records only -/

/-- What a relation between the flag and the stream of one run and those of the other must allow:
both runs emit a record, only one of them logs because their flags differ, both flags are written. -/
structure Channel (Q : Bool → List Output → Bool → List Output → Prop) : Prop where
  emit : ∀ {d l d' l'} (r : Output), Q d l d' l' → Q d (l ++ [r]) d' (l' ++ [r])
  logFirst : ∀ {d l d' l' r}, d ≠ d' → isLogReport r = true → Q d l d' l' → Q d (l ++ [r]) d' l'
  logSecond : ∀ {d l d' l' r}, d ≠ d' → isLogReport r = true → Q d l d' l' → Q d l d' (l' ++ [r])
  debug : ∀ {d l d' l'} (v : Bool), Q d l d' l' → Q v l v l'

/-- The second state is the first but for `debug_out` and the stream, which are in the channel. -/
inductive Related (Q : Bool → List Output → Bool → List Output → Prop) (s : State) : State → Prop
  | mk (d : Bool) (o : List Output) (q : Q s.debugOut s.out d o) :
    Related Q s { s with debugOut := d, out := o }

/-- Where the first outcome is a next state, the second is a related one. -/
def RelatedOutcome (Q : Bool → List Output → Bool → List Output → Prop)
    (o o' : Host.Outcome State Fault Refusal) : Prop :=
  ∀ t, o = .next t → ∃ u, o' = .next u ∧ Related Q t u

theorem rel_ite {α : Type} {R : α → α → Prop} {c : Prop} [Decidable c] {a b a' b' : α}
    (pos : c → R a a') (neg : ¬ c → R b b') : R (if c then a else b) (if c then a' else b') := by
  split_ifs with h
  · exact pos h
  · exact neg h

section
variable {Q : Bool → List Output → Bool → List Output → Prop} {s u : State}

theorem Related.next (h : Related Q s u) : RelatedOutcome Q (.next s) (.next u) := by
  intro t e
  cases e
  exact ⟨u, rfl, h⟩

theorem Related.emitOutput (ch : Channel Q) (r : Output) (h : Related Q s u) :
    Related Q (emitOutput r s) (emitOutput r u) := by
  cases h with
  | mk d o q => exact .mk d _ (ch.emit r q)

/-! ### Sensors, door and lock -/

theorem Related.reconcileSensor (ch : Channel Q) (x : Sensor) (h : Related Q s u) :
    Related Q (reconcileSensor x s) (reconcileSensor x u) := by
  cases h with
  | mk d o q => exact rel_ite (fun _ => .mk d _ (ch.emit _ q)) (fun _ => .mk d o q)

theorem Related.reconcile (ch : Channel Q) (h : Related Q s u) :
    Related Q (reconcile s) (reconcile u) :=
  (((h.reconcileSensor ch .airA).reconcileSensor ch .airB).reconcileSensor ch .radarA)
    |>.reconcileSensor ch .radarB

theorem Related.selectCommand (code : Byte) (h : Related Q s u) :
    Related Q (selectCommand code s) (selectCommand code u) := by
  cases h with
  | mk d o q => exact rel_ite (fun _ => .mk d o q) (fun _ => .mk d o q)

theorem Related.returning (r : Result) (h : Related Q s u) :
    Related Q (returning r s) (returning r u) := by
  cases h with
  | mk d o q => exact .mk d o q

theorem Related.movedTo (ch : Channel Q) (now : Time) (new : CtlState) (h : Related Q s u) :
    Related Q (movedTo now new s) (movedTo now new u) := by
  cases h with
  | mk d o q => exact .mk d _ (ch.emit _ q)

theorem Related.entering (latches : List Bool) (pos : Position) (h : Related Q s u) :
    Related Q { s with swLatch := latches, posAtEntry := pos }
      { u with swLatch := latches, posAtEntry := pos } := by
  cases h with
  | mk d o q => exact .mk d o q

theorem Related.firedState (ch : Channel Q) (now : Time) (pos : Position) (code : Byte)
    (h : Related Q s u) : Related Q (firedState now pos code s) (firedState now pos code u) := by
  cases h with
  | mk d o q =>
    have triggered : Related Q { s with triggerRelease := true }
        { s with triggerRelease := true, debugOut := d, out := o } := .mk d o q
    exact ((triggered.selectCommand code).entering _ pos).movedTo ch now .transition

/-- A trigger reads neither record, so it fires in both runs or in neither. -/
theorem Related.fireTrigger (ch : Channel Q) (now : Time) (pos : Position) (fires : Bool)
    (code : Byte) (outside : s.ctlState ≠ .transition) (h : Related Q s u) :
    Related Q (fireTrigger now pos fires code s) (fireTrigger now pos fires code u) := by
  have outside' : u.ctlState ≠ .transition := by cases h; exact outside
  rw [fireTrigger_eq _ _ _ _ _ outside, fireTrigger_eq _ _ _ _ _ outside']
  refine rel_ite (fun _ => h.firedState ch now pos code) (fun _ => ?_)
  cases h with
  | mk d o q => exact .mk d o q

theorem Related.doorArm_of_contradicts (ch : Channel Q) {now : Time} {pos : Position}
    (against : contradicts pos s) (h : Related Q s u) :
    Related Q (doorArm now pos s) (doorArm now pos u) := by
  cases h with
  | mk d o q =>
    rw [Machine.doorArm_of_contradicts against,
      Machine.doorArm_of_contradicts (s := { s with debugOut := d, out := o }) against]
    refine .mk d _ ?_
    have both := ch.emit (.diag (.iState s.ctlState .undefined))
      (ch.emit (.diag (.eInconsistent s.ctlState pos)) q)
    rwa [List.append_assoc, List.append_assoc] at both

theorem Related.doorArm (ch : Channel Q) (now : Time) (pos : Position) (h : Related Q s u) :
    Related Q (doorArm now pos s) (doorArm now pos u) := by
  have same : u.ctlState = s.ctlState := by cases h; rfl
  cases state : s.ctlState with
  | undefined =>
    rw [doorArm_undefined state, doorArm_undefined (same.trans state)]
    exact rel_ite (fun _ => h.movedTo ch now _) fun _ =>
      rel_ite (fun _ => h.movedTo ch now _) fun _ => h
  | openStart =>
    rw [doorArm_openStart state, doorArm_openStart (same.trans state)]
    refine Related.movedTo ch now .opened ?_
    cases h with
    | mk d o q => exact .mk d o q
  | opened =>
    by_cases agrees : pos = .opened
    · subst agrees
      have trigger : releaseTrigger now u = releaseTrigger now s := by cases h; rfl
      rw [doorArm_opened state, doorArm_opened (same.trans state), trigger]
      exact h.fireTrigger ch now _ _ _ (by simp [state])
    · exact h.doorArm_of_contradicts ch (.inl ⟨state, agrees⟩)
  | closed =>
    by_cases agrees : pos = .closed
    · subst agrees
      have lockSame : u.lockActive = s.lockActive := by cases h; rfl
      cases lock : s.lockActive with
      | true =>
        rw [doorArm_closed_lockActive state lock,
          doorArm_closed_lockActive (same.trans state) (lockSame.trans lock)]
        exact h.movedTo ch now _
      | false =>
        have trigger : openTrigger u = openTrigger s := by cases h; rfl
        rw [doorArm_closed_unlocked state lock,
          doorArm_closed_unlocked (same.trans state) (lockSame.trans lock), trigger]
        exact h.fireTrigger ch now _ _ _ (by simp [state])
    · exact h.doorArm_of_contradicts ch (.inr ⟨.inl state, agrees⟩)
  | closedLocked =>
    by_cases agrees : pos = .closed
    · subst agrees
      have lockSame : u.lockActive = s.lockActive := by cases h; rfl
      rw [doorArm_closedLocked state, doorArm_closedLocked (same.trans state), lockSame]
      exact rel_ite (fun _ => h.movedTo ch now _) fun _ => h
    · exact h.doorArm_of_contradicts ch (.inr ⟨.inr state, agrees⟩)
  | transition =>
    rw [doorArm_transition state, doorArm_transition (same.trans state)]
    have moved := h.movedTo ch now (fallbackState pos)
    cases h with
    | mk d o q => exact rel_ite (fun _ => moved) fun _ => .mk d o q

theorem Related.doorStep (ch : Channel Q) (now : Time) (pos : Position) (h : Related Q s u) :
    Related Q (doorStep now pos s) (doorStep now pos u) := by
  have cleared : Related Q (clearRelease s) (clearRelease u) := by
    cases h with
    | mk d o q => exact .mk d o q
  have arm := cleared.doorArm ch now pos
  cases h with
  | mk d o q => exact rel_ite (fun _ => arm) fun _ => cleared

theorem Related.lockStep (ch : Channel Q) (now : Time) (h : Related Q s u) :
    Related Q (lockStep now s) (lockStep now u) := by
  cases h with
  | mk d o q =>
    refine rel_ite (fun _ => ?pulse) fun _ =>
      rel_ite (fun _ => rel_ite (fun _ => ?honour) fun _ => ?remind) fun _ => .mk d o q
    case pulse => exact rel_ite (fun _ => .mk d _ (ch.emit _ q)) fun _ => .mk d o q
    case honour => exact .mk d _ (ch.emit _ q)
    case remind => exact rel_ite (fun _ => .mk d _ (ch.emit _ q)) fun _ => .mk d o q

/-! ### The two suppressed logs (R142, R158) -/

/-- The policy of both logs (R143, R161): where it differs between two values of `debug_out`, the
payload is the one logged last. -/
theorem due_differs {d d' valid : Bool} {last p : Payload} (due : (d || !valid || last != p) = true)
    (quiet : (d' || !valid || last != p) = false) : d ≠ d' ∧ valid = true ∧ last = p := by
  simp only [Bool.or_eq_false_iff, Bool.not_eq_false', bne_eq_false_iff_eq] at quiet
  obtain ⟨⟨off, logged⟩, same⟩ := quiet
  refine ⟨?_, logged, same⟩
  rintro rfl
  simp [off, logged, same] at due

/-- Logging the payload logged last again writes the stream only. -/
theorem enqueueLogged_again {s : State} (logged : s.rxlogValid = true) (depth : Nat) :
    { emit (.iRxlog s.rxlogLast depth) s with rxlogLast := s.rxlogLast, rxlogValid := true } =
      emit (.iRxlog s.rxlogLast depth) s := by
  rw [← logged]
  rfl

theorem txLogged_again {s : State} (logged : s.txlogValid = true) :
    { emit (.iTxlog s.txlogLast) s with txlogLast := s.txlogLast, txlogValid := true } =
      emit (.iTxlog s.txlogLast) s := by
  rw [← logged]
  rfl

theorem Related.enqueueLog (ch : Channel Q) (p : Payload) (h : Related Q s u) :
    Related Q (enqueueLog p s) (enqueueLog p u) := by
  cases h with
  | mk d o q =>
    unfold Machine.enqueueLog
    split_ifs with due due' due'
    · exact .mk d _ (ch.emit _ q)
    · obtain ⟨differ, logged, rfl⟩ := due_differs due (Bool.eq_false_iff.mpr due')
      rw [enqueueLogged_again logged]
      exact .mk d o (ch.logFirst differ rfl q)
    · obtain ⟨differ, logged, rfl⟩ := due_differs due' (Bool.eq_false_iff.mpr due)
      rw [enqueueLogged_again (s := { s with debugOut := d, out := o }) logged]
      exact .mk d _ (ch.logSecond differ.symm rfl q)
    · exact .mk d o q

theorem Related.txLog (ch : Channel Q) (p : Payload) (h : Related Q s u) :
    Related Q (txLog p s) (txLog p u) := by
  cases h with
  | mk d o q =>
    unfold Machine.txLog
    split_ifs with due due' due'
    · exact .mk d _ (ch.emit _ q)
    · obtain ⟨differ, logged, rfl⟩ := due_differs due (Bool.eq_false_iff.mpr due')
      rw [txLogged_again logged]
      exact .mk d o (ch.logFirst differ rfl q)
    · obtain ⟨differ, logged, rfl⟩ := due_differs due' (Bool.eq_false_iff.mpr due)
      rw [txLogged_again (s := { s with debugOut := d, out := o }) logged]
      exact .mk d _ (ch.logSecond differ.symm rfl q)
    · exact .mk d o q

theorem Related.enqueue (ch : Channel Q) (p : Payload) (h : Related Q s u) :
    Related Q (enqueue p s) (enqueue p u) := by
  have stored : Related Q (enqueueStore p s) (enqueueStore p u) := by
    cases h with
    | mk d o q => exact .mk d o q
  exact (stored.enqueueLog ch p).emitOutput ch (.newMsg p)

theorem Related.sendNext (ch : Channel Q) (now : Time) (c : Config.CommandDef) (h : Related Q s u) :
    Related Q (sendNext now c s) (sendNext now c u) := by
  cases h with
  | mk d o q => exact Related.txLog ch _ (.mk d _ (ch.emit _ q))

theorem Related.seqTick (ch : Channel Q) (now : Time) (h : Related Q s u) :
    Related Q (seqTick now s) (seqTick now u) := by
  have sends := fun c => h.sendNext ch now c
  cases h with
  | mk d o q =>
    refine rel_ite (fun _ => ?_) fun _ => .mk d o q
    dsimp only
    cases commandOf s.cfg s.seqCmd with
    | none => exact .mk d o q
    | some c => exact sends c

/-! ### The decoder -/

theorem Related.appendByte (ch : Channel Q) (v : Byte) (h : Related Q s u) :
    RelatedOutcome Q (appendByte v s) (appendByte v u) := by
  cases h with
  | mk d o q =>
    by_cases room : s.rxLen < Config.maxPayload
    · rw [appendByte_of_room v room,
        appendByte_of_room (s := { s with debugOut := d, out := o }) v room]
      exact Related.next (rel_ite (fun _ => .mk d _ (ch.emit _ q)) fun _ => .mk d o q)
    · intro t answer
      rw [Machine.appendByte, storeRxByte, if_neg room] at answer
      cases answer

theorem Related.withRxState (st : RxState) (h : Related Q s u) :
    Related Q { s with rxState := st } { u with rxState := st } := by
  cases h with
  | mk d o q => exact .mk d o q

theorem Related.receiveByte (ch : Channel Q) (b : Byte) (h : Related Q s u) :
    RelatedOutcome Q (receiveByte b s) (receiveByte b u) := by
  have same : u.rxState = s.rxState := by cases h; rfl
  cases state : s.rxState with
  | idle =>
    rw [receiveByte_idle b state, receiveByte_idle b (same.trans state)]
    exact Related.next (rel_ite (fun _ => h.withRxState .awaitStx) fun _ => h)
  | awaitStx =>
    rw [receiveByte_awaitStx b state, receiveByte_awaitStx b (same.trans state)]
    cases h with
    | mk d o q =>
      exact Related.next (rel_ite (fun _ => .mk d o q) fun _ =>
        rel_ite (fun _ => .mk d o q) fun _ => .mk d o q)
  | inFrame =>
    rw [receiveByte_inFrame b state, receiveByte_inFrame b (same.trans state)]
    cases h with
    | mk d o q =>
      exact rel_ite (fun _ => Related.next (.mk d o q)) fun _ =>
        Related.appendByte ch b (.mk d o q)
  | afterDle =>
    rw [receiveByte_afterDle b state, receiveByte_afterDle b (same.trans state)]
    cases h with
    | mk d o q =>
      exact rel_ite (fun _ => Related.appendByte ch Config.dle (.mk d o q)) fun _ =>
        rel_ite (fun _ => Related.next (.mk d o q)) fun _ =>
          Related.next (.mk d _ (ch.emit _ q))
  | awaitChecksum =>
    rw [receiveByte_awaitChecksum b state, receiveByte_awaitChecksum b (same.trans state)]
    have delivered := (h.enqueue ch s.rxPayload).withRxState .idle
    cases h with
    | mk d o q =>
      exact Related.next (rel_ite (fun _ => delivered) fun _ => .mk d _ (ch.emit _ q))

/-! ### Operations and steps -/

theorem Related.controlCycle (ch : Channel Q) (now : Time) (p : Position) (h : Related Q s u) :
    Related Q (controlCycle now p s) (controlCycle now p u) := by
  have positioned : Related Q { s with posLast := p } { u with posLast := p } := by
    cases h with
    | mk d o q => exact .mk d o q
  exact (((positioned.reconcile ch).doorStep ch now p).lockStep ch now).seqTick ch now

theorem Related.exec (ch : Channel Q) {i : Instr} (host : inSpace i .hostop = true)
    (h : Related Q s u) : RelatedOutcome Q (exec i s) (exec i u) := by
  cases i with
  | rxbyte b => exact h.receiveByte ch b
  | seqtick now => exact (h.seqTick ch now).next
  | cycle now code =>
    rw [exec_cycle, exec_cycle, execCycle, execCycle]
    cases positionOfCode code with
    | none => exact h.next
    | some p => exact (h.controlCycle ch now p).next
  | reset =>
    cases h with
    | mk d o q => exact Related.next (.mk false o (ch.debug false q))
  | setdebug v =>
    cases h with
    | mk d o q => exact Related.next (.mk v o (ch.debug v q))
  | dequeue =>
    have queue : u.q = s.q := by cases h; rfl
    cases head : s.q with
    | nil =>
      rw [exec_dequeue_nil head, exec_dequeue_nil (queue.trans head)]
      cases h with
      | mk d o q => exact Related.next (.mk d o q)
    | cons p r =>
      rw [exec_dequeue_cons head, exec_dequeue_cons (queue.trans head)]
      cases h with
      | mk d o q => exact Related.next (.mk d o q)
  | select c =>
    have ok : selectOk c u = selectOk c s := by cases h; rfl
    rw [exec_select, exec_select, hostSelect, hostSelect, ok]
    exact ((h.selectCommand c).returning _).next
  | rawwr k v =>
    cases h with
    | mk d o q =>
      change RelatedOutcome Q (execRawwr k v s) (execRawwr k v { s with debugOut := d, out := o })
      unfold execRawwr
      cases sensorOfIndex k <;> exact Related.next (.mk d o q)
  | setlatch k =>
    cases h with
    | mk d o q => exact Related.next (rel_ite (fun _ => .mk d o q) fun _ => .mk d o q)
  | setmode | setlockreq | encode | unassignedC | unassignedD | unassignedE | unassignedF =>
    cases h with
    | mk d o q => exact Related.next (.mk d o q)
  | _ => simp [inSpace] at host

theorem Related.step (ch : Channel Q) (h : Related Q s u) : RelatedOutcome Q (step s) (step u) := by
  intro t stepped
  have fetches : fetch u = fetch s := by cases h; rfl
  rcases step_eq_next stepped with ⟨nothing, rfl⟩ | ⟨i, r, host, fetched, answer⟩
  · refine ⟨u, ?_, h⟩
    rw [Machine.step, fetches, nothing]
  · have waiting : Related Q { s with pending := r } { u with pending := r } := by
      cases h with
      | mk d o q => exact .mk d o q
    rw [Machine.step, fetches, fetched]
    exact waiting.exec ch host t answer

end

/-! ### The two channels -/

/-- The streams are one run's records after two beginnings, the flags the same (R45, R255). -/
def SharedRecords (a b : List Output) (d : Bool) (l : List Output) (d' : Bool) (l' : List Output) :
    Prop := d = d' ∧ ∃ x, l = a ++ x ∧ l' = b ++ x

theorem sharedRecords_channel (a b : List Output) : Channel (SharedRecords a b) where
  emit := by
    rintro d _ _ _ r ⟨rfl, x, rfl, rfl⟩
    exact ⟨rfl, x ++ [r], List.append_assoc .., List.append_assoc ..⟩
  logFirst differ _ q := absurd q.1 differ
  logSecond differ _ q := absurd q.1 differ
  debug _ q := ⟨rfl, q.2⟩

/-- The streams are the same but for the log records (R271). -/
def SameButLogs (_ : Bool) (l : List Output) (_ : Bool) (l' : List Output) : Prop :=
  l'.filter (fun o => !isLogReport o) = l.filter (fun o => !isLogReport o)

theorem sameButLogs_channel : Channel SameButLogs where
  emit r q := by simp only [SameButLogs, List.filter_append] at q ⊢; rw [q]
  logFirst _ log q := by simpa [SameButLogs, log] using q
  logSecond _ log q := by simpa [SameButLogs, log] using q
  debug _ q := q

/-- Settles O59: the run with the stream replaced is in the channel of its own beginning, so what it
adds is what the first run adds. -/
theorem outputsAreNeverRead : Obligations.OutputsAreNeverRead := by
  intro s t stepped
  have replaced (o : List Output) : ∃ added, t.out = s.out ++ added ∧
      step { s with out := o } = .next { t with out := o ++ added } := by
    have h : Related (SharedRecords s.out o) s { s with out := o } :=
      .mk s.debugOut o ⟨rfl, [], (List.append_nil _).symm, (List.append_nil _).symm⟩
    obtain ⟨u, answer, related⟩ := h.step (sharedRecords_channel s.out o) t stepped
    cases related with
    | mk d o' q =>
      obtain ⟨rfl, added, grown, rfl⟩ := q
      exact ⟨added, grown, answer⟩
  obtain ⟨added, grown, _⟩ := replaced []
  refine ⟨added, grown, fun o => ?_⟩
  obtain ⟨added', grown', answer⟩ := replaced o
  obtain rfl := List.append_cancel_left (grown.symm.trans grown')
  exact answer

/-- Settles O60: the runs with the two flags stay in the channel that ignores the log records. -/
theorem debugFlagOnlyLogs : Obligations.DebugFlagOnlyLogs := by
  intro s t d stepped
  have h : Related SameButLogs s { s with debugOut := d } := .mk d s.out rfl
  obtain ⟨u, answer, related⟩ := h.step sameButLogs_channel t stepped
  cases related with
  | mk d o q => exact ⟨_, answer, rfl, q⟩

end Sys2Proof.Machine
